-- ==== Sys2Proof/Word.lean ====
section
/-! DEFINITION. The register word and its plainest arithmetic (spec/00_scope.md R9: every register value and
bus datum is an unsigned 32-bit word; bit 0 is the least significant). -/

namespace Sys2Proof

/-- A register value or bus datum (R9, `REG_BITS = 32`). -/
abbrev Word := BitVec 32

/-- One byte of the HOST's PCM buffer (R49). -/
abbrev Byte := BitVec 8

/-- A flag as a word: 1 or 0. -/
def Word.ofFlag (b : Bool) : Word := if b then 1#32 else 0#32

end Sys2Proof
end

