-- ==== Sys2Proof/Machine/Types.lean ====
section
/-! DEFINITION. The plain data the machine is made of: the registers' names, the pending items, the agents'
turns, the entries of the CG tables and of the logs, and the requests and operations of the HOST. -/

namespace Sys2Proof.Machine

/-- A value with the spec's mark: "32-bit word or `any`", "the serial data bit, or `any`" (R10, R8). Where `any`
is set the value is a free one, drawn at the step where it appears (R9; log 7). -/
structure OrAny (α : Type) where
  value : α
  any : Bool
  deriving DecidableEq, Repr, Inhabited

/-- A value the spec states. -/
abbrev OrAny.val {α : Type} (a : α) : OrAny α := { value := a, any := false }

/-- `any`: the value drawn, marked (R9). -/
abbrev OrAny.free {α : Type} (a : α) : OrAny α := { value := a, any := true }

/-- The nine registers of the two blocks (R40). -/
inductive Reg where
  | ctrla | clkctrl0 | intflag | syncbusy | serctrl0 | data0
  | cgstatus | gencfg | clkroute
  deriving DecidableEq, Repr

/-- The direction of a transaction: bit 8 of the selector, 0 = read, 1 = write (R56). -/
inductive Dir where
  | read | write
  deriving DecidableEq, Repr

/-- The refusal reasons X1 to X9 (R201). -/
inductive Reason where
  /-- X1: access size not 4 bytes, or address not a multiple of 4 (R42). -/
  | x1
  /-- X2: unmapped offset (R40). -/
  | x2
  /-- X3: write to a read-only register, SYNCBUSY or CGSTATUS (R59). -/
  | x3
  /-- X4: read of the write-only register DATA0 (R123). -/
  | x4
  /-- X5: a 1 written to a reserved bit (R70). -/
  | x5
  /-- X6: CG field out of range (R81, R83). -/
  | x6
  /-- X7: an enable bit set while the configuration is not the reference configuration (R107). -/
  | x7
  /-- X8: a CG write that touches the clock of an active ASC (R88). -/
  | x8
  /-- X9: host side, a PCM buffer shorter than 44 bytes or with an odd number of bytes after them (R178). -/
  | x9
  deriving DecidableEq, Repr

/-- The six items a write can leave pending (R22, R23). -/
inductive Item where
  | enable | cken0 | seren0 | data0 | clkctrl0 | serctrl0
  deriving DecidableEq, Repr, Inhabited

/-- Which agent takes the next step (R6). SYNC's turn names the item it picks (R140); SRCTICK's names the
source oscillator (R87). -/
inductive Turn where
  | host
  | cgSync
  | sync (item : Item)
  | srcTick (src : BitVec 4)
  deriving DecidableEq, Repr, Inhabited

/-- The three independent enable bits (R15, R16). -/
structure Enables where
  enable : Bool
  cken0 : Bool
  seren0 : Bool
  deriving DecidableEq, Repr, Inhabited

/-- The set `pend`: one flag per item (R10, R23). -/
structure Pend where
  enable : Bool
  cken0 : Bool
  seren0 : Bool
  data0 : Bool
  clkctrl0 : Bool
  serctrl0 : Bool
  deriving DecidableEq, Repr, Inhabited

/-- A slot number: 0 is left, 1 is right (R12). -/
abbrev Slot := Fin 2

/-- The CG write that has not yet taken effect (R29). -/
inductive CgPend where
  | none
  | gen (v : Word)
  | route (v : Word)
  deriving DecidableEq, Repr, Inhabited

/-- One entry of the effective generator table (R28). -/
structure GenEntry where
  src : BitVec 4
  div : BitVec 16
  genen : Bool
  deriving DecidableEq, Repr, Inhabited

/-- One entry of the effective routing table (R28). -/
structure ChanEntry where
  gen : BitVec 4
  clken : Bool
  deriving DecidableEq, Repr, Inhabited

/-- A word in the holding register with the slot it is for (R11). -/
structure Held where
  word : Word
  slot : Slot
  deriving DecidableEq, Repr, Inhabited

/-- One entry of `buslog`: the selector and the value read or written (R8, R70). -/
structure BusEntry where
  sel : BitVec 10
  data : Word
  deriving DecidableEq, Repr

/-- One entry of `txlog`: a slot start with the word loaded, or an underrun (R8, R149). -/
inductive TxEntry where
  | loaded (slot : Slot) (word : Word)
  | underrun (slot : Slot)
  deriving DecidableEq, Repr

/-- One entry of `pinlog`: the frame-sync level and the serial data bit, or `any` (R8, R148). -/
structure PinEntry where
  fs : Bool
  sd : OrAny Bool
  deriving DecidableEq, Repr

/-- What the three pins do in a serial clock period: the levels of FS and SD, and how many cycles SCK makes (R34). -/
structure PinLevels where
  fs : Bool
  sck : Nat
  sd : Bool
  deriving DecidableEq, Repr, Inhabited

/-- The three pins, each with a value or `any` (R34). -/
structure Pins where
  fs : OrAny Bool
  sck : OrAny Nat
  sd : OrAny Bool
  deriving DecidableEq, Repr

/-- A transaction `(sel, wdata)` (R56) with the access size in bytes that the bus gives with it (R42). -/
structure Request where
  sel : BitVec 10
  size : Nat
  wdata : Word
  deriving DecidableEq, Repr

/-- One operation of a HOST program: the forms WR, RD and POLL of R61, and the two-read loop of the driver's
`write` (R174), which is no POLL because it tests two registers. -/
inductive HostOp where
  /-- WR or RD: one transaction. -/
  | issue (r : Request)
  /-- POLL: read the register of `sel` until `(result & mask) = want` (R73). -/
  | poll (sel : BitVec 10) (mask want : Word)
  /-- The loop of `write`, its read of INTFLAG next (R174). -/
  | awaitReady
  /-- The loop of `write`, its read of SYNCBUSY next; `f` is the INTFLAG word just read (R174). -/
  | awaitReadyBusy (f : Word)
  deriving DecidableEq, Repr

/-- The playback loop's variables (R180): the decoded samples, how many have been pulled, and the optional trigger's
values in the passes to come; none where there is no trigger (log 21). -/
structure Player where
  samples : List (BitVec 16)
  pulled : Nat
  trigger : Option (List Bool)
  deriving DecidableEq, Repr

end Sys2Proof.Machine
end

