-- ==== Sys2Proof/Syntax.lean ====
section
/-! DEFINITION. The transactions that play the part of instructions: one constructor per row of
spec/opcode_table.json, in R58's table (spec/30_encoding.md). A write carries its `wdata` (R56, R57); a read
carries nothing, because `wdata` "is meaningful only for a write". -/

namespace Sys2Proof

/-- The 15 admitted bus transactions (R58). -/
inductive Instr where
  | rdCtrla                     -- RD.CTRLA     0x000
  | wrCtrla (wdata : Word)      -- WR.CTRLA     0x100
  | rdClkctrl0                  -- RD.CLKCTRL0  0x004
  | wrClkctrl0 (wdata : Word)   -- WR.CLKCTRL0  0x104
  | rdIntflag                   -- RD.INTFLAG   0x014
  | wrIntflag (wdata : Word)    -- WR.INTFLAG   0x114
  | rdSyncbusy                  -- RD.SYNCBUSY  0x018
  | rdSerctrl0                  -- RD.SERCTRL0  0x020
  | wrSerctrl0 (wdata : Word)   -- WR.SERCTRL0  0x120
  | wrData0 (wdata : Word)      -- WR.DATA0     0x130
  | rdCgstatus                  -- RD.CGSTATUS  0x200
  | rdGencfg                    -- RD.GENCFG    0x204
  | wrGencfg (wdata : Word)     -- WR.GENCFG    0x304
  | rdClkroute                  -- RD.CLKROUTE  0x208
  | wrClkroute (wdata : Word)   -- WR.CLKROUTE  0x308
  deriving DecidableEq, Repr

end Sys2Proof
end

