-- ==== Sys2Proof/Decode.lean ====
section
/-! DEFINITION. From a bus request to a transaction and back (spec/30_encoding.md R56, R58, R59;
spec/20_memory.md R40, R42). Decoding is total and rejects by the refusal reasons X1 to X4 in the order of
spec/40_bus_access.md R70. The reserved-bit check X5 depends on the data word and is made by the write
operation of Machine/Ops.lean. -/

namespace Sys2Proof

open Machine

/-- BLK of a register: 0 = ASC register block, 1 = CG register block (R56). -/
def Machine.Reg.block : Reg → BitVec 1
  | .ctrla | .clkctrl0 | .intflag | .syncbusy | .serctrl0 | .data0 => 0
  | .cgstatus | .gencfg | .clkroute => 1

/-- OFF of a register: its byte offset inside its block (R40). -/
def Machine.Reg.offset : Reg → BitVec 8
  | .ctrla => 0x00
  | .clkctrl0 => 0x04
  | .intflag => 0x14
  | .syncbusy => 0x18
  | .serctrl0 => 0x20
  | .data0 => 0x30
  | .cgstatus => 0x00
  | .gencfg => 0x04
  | .clkroute => 0x08

/-- The registers of R40's table, in its order. -/
def Machine.Reg.table : List Reg :=
  [.ctrla, .clkctrl0, .intflag, .syncbusy, .serctrl0, .data0, .cgstatus, .gencfg, .clkroute]

/-- The register at an offset of a block, if the offset is mapped (R40). -/
def regAt (blk : BitVec 1) (off : BitVec 8) : Option Reg :=
  Reg.table.find? fun r => r.block == blk && r.offset == off

/-- DIR: 0 = read, 1 = write (R56). -/
def Machine.Dir.bit : Dir → BitVec 1
  | .read => 0
  | .write => 1

/-- The selector `sel = BLK, DIR, OFF`, from bit 9 down (R56). -/
def selector (r : Reg) (d : Dir) : BitVec 10 := r.block ++ d.bit ++ r.offset

/-- BLK is bit 9 of the selector (R56). -/
def selBlock (sel : BitVec 10) : BitVec 1 := sel.extractLsb' 9 1

/-- DIR is bit 8 of the selector (R56). -/
def selDir (sel : BitVec 10) : Dir := if sel.getLsbD 8 then .write else .read

/-- OFF is bits 7 to 0 of the selector (R56). -/
def selOffset (sel : BitVec 10) : BitVec 8 := sel.extractLsb' 0 8

/-- The read of a register, where R58 has one; DATA0 is write-only (R24). -/
def readInstr : Reg → Option Instr
  | .ctrla => some .rdCtrla
  | .clkctrl0 => some .rdClkctrl0
  | .intflag => some .rdIntflag
  | .syncbusy => some .rdSyncbusy
  | .serctrl0 => some .rdSerctrl0
  | .data0 => none
  | .cgstatus => some .rdCgstatus
  | .gencfg => some .rdGencfg
  | .clkroute => some .rdClkroute

/-- The write of a register, where R58 has one; SYNCBUSY and CGSTATUS are read-only (R22, R25). -/
def writeInstr (wdata : Word) : Reg → Option Instr
  | .ctrla => some (.wrCtrla wdata)
  | .clkctrl0 => some (.wrClkctrl0 wdata)
  | .intflag => some (.wrIntflag wdata)
  | .syncbusy => none
  | .serctrl0 => some (.wrSerctrl0 wdata)
  | .data0 => some (.wrData0 wdata)
  | .cgstatus => none
  | .gencfg => some (.wrGencfg wdata)
  | .clkroute => some (.wrClkroute wdata)

/-- X1: the size is not 4 bytes or the address is not a multiple of 4 (R42). The bases are multiples of 4
(R40), so the address is one exactly when OFF is (log 12). -/
def badAccess (r : Request) : Bool := r.size != 4 || (selOffset r.sel).toNat % 4 != 0

/-- The transaction a request names, or the first reason of X1 to X4 that applies (R70). -/
def decode (r : Request) : Except Reason Instr :=
  if badAccess r then .error .x1
  else match regAt (selBlock r.sel) (selOffset r.sel) with
    | none => .error .x2
    | some reg =>
      match selDir r.sel with
      | .write => (writeInstr r.wdata reg).elim (.error .x3) .ok
      | .read => (readInstr reg).elim (.error .x4) .ok

/-- The register a transaction is about. -/
def Instr.reg : Instr → Reg
  | .rdCtrla => .ctrla
  | .wrCtrla _ => .ctrla
  | .rdClkctrl0 => .clkctrl0
  | .wrClkctrl0 _ => .clkctrl0
  | .rdIntflag => .intflag
  | .wrIntflag _ => .intflag
  | .rdSyncbusy => .syncbusy
  | .rdSerctrl0 => .serctrl0
  | .wrSerctrl0 _ => .serctrl0
  | .wrData0 _ => .data0
  | .rdCgstatus => .cgstatus
  | .rdGencfg => .gencfg
  | .wrGencfg _ => .gencfg
  | .rdClkroute => .clkroute
  | .wrClkroute _ => .clkroute

/-- The data word of a write; a read has none (R56). -/
def Instr.wdata? : Instr → Option Word
  | .rdCtrla | .rdClkctrl0 | .rdIntflag | .rdSyncbusy | .rdSerctrl0 => none
  | .rdCgstatus | .rdGencfg | .rdClkroute => none
  | .wrCtrla w => some w
  | .wrClkctrl0 w => some w
  | .wrIntflag w => some w
  | .wrSerctrl0 w => some w
  | .wrData0 w => some w
  | .wrGencfg w => some w
  | .wrClkroute w => some w

/-- The direction of a transaction. -/
def Instr.dir (i : Instr) : Dir := if i.wdata?.isSome then .write else .read

/-- The request of a transaction: R58's selector, 4 bytes, and the data word (0 where it has no meaning). -/
def encode (i : Instr) : Request where
  sel := selector i.reg i.dir
  size := 4
  wdata := i.wdata?.getD 0

/-- The layout this model gives a transaction as one number, for the opcode table's numbering: `sel` in bits 9
to 0, zeros in bits 15 to 10, `wdata` in bits 47 to 16 (log 13). Bits above `nbits` are 0. -/
def requestOfBits (nbits w : Nat) : Option Request :=
  let v := w % 2 ^ nbits
  if v % 2 ^ 16 < 2 ^ 10 then
    some { sel := BitVec.ofNat 10 v, size := 4, wdata := BitVec.ofNat 32 (v / 2 ^ 16) }
  else none

/-- The transaction the decoder reads from the opcode table's numbering of its bits. -/
def decodeTableWord (nbits w : Nat) : Option Instr :=
  match requestOfBits nbits w with
  | none => none
  | some r =>
    match decode r with
    | .ok i => some i
    | .error _ => none

end Sys2Proof
end

