-- ==== Sys2Proof/Config.lean ====
section
/-! DEFINITION. What the implementation fixes and the spec leaves OPEN (spec/00_scope.md R4), and the free
values. Each opaque constant has no body: nothing can be proved of its value. The parameters are built from the
opaque constants so that they lie in R4's ranges, and every value of those ranges is reached (log 10). -/

namespace Sys2Proof.Config

/-- OPEN parameter, as a multiple of 4: the ASC block's base address is four times this (R4, R40). -/
opaque ascBaseWords : Nat
/-- OPEN parameter: the CG block's base address is four times this, unless the blocks would overlap. -/
opaque cgBaseWords : Nat
/-- OPEN parameter: N_GEN less one (R4: 1 to 16). -/
opaque nGenLessOne : Fin 16
/-- OPEN parameter: N_SRC less one (R4: 1 to 16). -/
opaque nSrcLessOne : Fin 16
/-- OPEN parameter: ASC_CID (R4: 0 to 63). -/
opaque ascCid : BitVec 6
/-- OPEN parameter: FS_SLOT0_LEVEL, the level of FS during slot 0 (R4, R151). -/
opaque fsSlot0Level : Bool
/-- OPEN parameter: F_SRC of source oscillator `s` in Hz, less one (R4: a positive integer). -/
opaque sourceHzLessOne : Nat → Nat
/-- OPEN: which of the source oscillators is the reference oscillator (R4, R5; log 10). -/
opaque referenceSourceIndex : Fin 16

/-- Free value: the agent that moves when the schedule in State is empty (R6, R44; log 1). -/
opaque freeTurn : Nat → Machine.Turn
/-- Free value: a word drawn where the spec says `any` (R9): what a read returns while `undef` is set (R31, R70;
log 6), and the shift register and the serial data bit where they are `any` (R146, R148, R149; log 7). -/
opaque freeWord : Nat → Word
/-- Free value: the trigger of the playback loop in a pass for which the HOST's input names none (R180; log 21). -/
opaque freeTrigger : Nat → Bool

/-- The parameters of R4 that enter a rule of a step. -/
structure Params where
  ascBase : Nat
  cgBase : Nat
  nGen : Nat
  nSrc : Nat
  ascCid : BitVec 6
  fsSlot0Level : Bool
  deriving DecidableEq, Repr

/-- R4's ranges: bases multiples of 4, blocks of 0x100 bytes that do not overlap, 1 to 16 generators and
source oscillators. -/
def Params.Valid (p : Params) : Prop :=
  p.ascBase % 4 = 0 ∧ p.cgBase % 4 = 0 ∧
  (p.ascBase + 0x100 ≤ p.cgBase ∨ p.cgBase + 0x100 ≤ p.ascBase) ∧
  1 ≤ p.nGen ∧ p.nGen ≤ 16 ∧ 1 ≤ p.nSrc ∧ p.nSrc ≤ 16

/-- The CG block's base: four times the open constant where the two blocks do not overlap, else the address
just above the ASC block, so that R4's range holds whatever the constants are. -/
def cgBaseOf (asc cg : Nat) : Nat :=
  if asc + 0x100 ≤ cg ∨ cg + 0x100 ≤ asc then cg else asc + 0x100

/-- This machine's parameters. -/
def params : Params where
  ascBase := 4 * ascBaseWords
  cgBase := cgBaseOf (4 * ascBaseWords) (4 * cgBaseWords)
  nGen := nGenLessOne.val + 1
  nSrc := nSrcLessOne.val + 1
  ascCid := ascCid
  fsSlot0Level := fsSlot0Level

/-- The reference oscillator's frequency in Hz (R4, R5). -/
def referenceHz : Nat := 48000000

/-- The reference oscillator, one of the N_SRC that exist (R4). -/
def referenceSource : BitVec 4 := BitVec.ofNat 4 (referenceSourceIndex.val % params.nSrc)

/-- F_SRC[s] in Hz: the reference oscillator's is 48,000,000, any other's a positive integer (R4). -/
def sourceHz (s : Nat) : Nat :=
  if s = referenceSource.toNat then referenceHz else sourceHzLessOne s + 1

end Sys2Proof.Config
end

