-- ==== Sys2Proof/Machine/Operands.lean ====
section
/-! DEFINITION. The operand forms of the writes: the fields of each register's data word
(spec/30_encoding.md R57; spec/10_state.md R15, R17, R18, R19, R26, R27), the reserved bits
(spec/40_bus_access.md R70) and the constants of the reference configuration (R62). -/

namespace Sys2Proof.Machine

/-- R70's `reserved_mask` of a register: the bits that may not be written as 1. SYNCBUSY and CGSTATUS take no
write; all their bits are marked. -/
def reservedMask : Reg → Word
  | .ctrla => 0xFFFFFFE9
  | .clkctrl0 => 0xFFFEEE60
  | .serctrl0 => 0xFCFF085C
  | .intflag => 0xFFFFEEFF
  | .data0 => 0x00000000
  | .gencfg => 0x0000FE00
  | .clkroute => 0xFFFFB0C0
  | .syncbusy => 0xFFFFFFFF
  | .cgstatus => 0xFFFFFFFF

/-- The three enable bits of a CTRLA word: ENABLE bit 1, CKEN0 bit 2, SEREN0 bit 4 (R15). -/
def ctrlaFields (w : Word) : Enables where
  enable := w.getLsbD 1
  cken0 := w.getLsbD 2
  seren0 := w.getLsbD 4

/-- TXUR0 of an INTFLAG word: bit 12 (R19). -/
def intflagTxur0 (w : Word) : Bool := w.getLsbD 12

/-- ID of a GENCFG word: bits 3 to 0 (R26). -/
def gencfgId (w : Word) : BitVec 4 := w.extractLsb' 0 4

/-- SRC of a GENCFG word: bits 7 to 4 (R26). -/
def gencfgSrc (w : Word) : BitVec 4 := w.extractLsb' 4 4

/-- GENEN of a GENCFG word: bit 8 (R26). -/
def gencfgGenen (w : Word) : Bool := w.getLsbD 8

/-- DIV of a GENCFG word: bits 31 to 16, the divisor itself (R26, R57). -/
def gencfgDiv (w : Word) : BitVec 16 := w.extractLsb' 16 16

/-- The table entry a GENCFG word stands for (R85). -/
def gencfgEntry (w : Word) : GenEntry where
  src := gencfgSrc w
  div := gencfgDiv w
  genen := gencfgGenen w

/-- CID of a CLKROUTE word: bits 5 to 0 (R27). -/
def clkrouteCid (w : Word) : BitVec 6 := w.extractLsb' 0 6

/-- GEN of a CLKROUTE word: bits 11 to 8 (R27). -/
def clkrouteGen (w : Word) : BitVec 4 := w.extractLsb' 8 4

/-- CLKEN of a CLKROUTE word: bit 14 (R27). -/
def clkrouteClken (w : Word) : Bool := w.getLsbD 14

/-- The table entry a CLKROUTE word stands for (R85). -/
def clkrouteEntry (w : Word) : ChanEntry where
  gen := clkrouteGen w
  clken := clkrouteClken w

/-- CTRLA with all three enable bits set (R62). -/
def ctrlaAll : Word := 0x00000016

/-- CTRLA with all three enable bits clear (R62). -/
def ctrlaNone : Word := 0x00000000

/-- CLKCTRL0 in the reference configuration (R62). -/
def clkctrl0Ref : Word := 0x00000087

/-- SERCTRL0 in the reference configuration (R62). -/
def serctrl0Ref : Word := 0x00000001

/-- TXUR0 in INTFLAG (R62). -/
def txur0Mask : Word := 0x00001000

/-- TXRDY0 in INTFLAG (R62). -/
def txrdy0Mask : Word := 0x00000100

/-- DATA0 in SYNCBUSY (R62). -/
def data0Busy : Word := 0x00000100

/-- Every defined bit of SYNCBUSY (R62, R22). -/
def syncbusyAll : Word := 0x00000D16

/-- SYNCBUSY in CGSTATUS (R62). -/
def cgBusyMask : Word := 0x00000080

/-- A GENCFG word assembled from its fields (R170: `(divisor << 16) | (enable << 8) | (source << 4) | id`). -/
def gencfgWord (id src : BitVec 4) (div : BitVec 16) (genen : Bool) : Word :=
  (div.setWidth 32 <<< 16) ||| (Word.ofFlag genen <<< 8) ||| (src.setWidth 32 <<< 4) ||| id.setWidth 32

/-- A CLKROUTE word assembled from its fields (R170: `(1 << 14) | (generator << 8) | consumer`). -/
def clkrouteWord (cid : BitVec 6) (gen : BitVec 4) (clken : Bool) : Word :=
  (Word.ofFlag clken <<< 14) ||| (gen.setWidth 32 <<< 8) ||| cid.setWidth 32

/-- The divisor of the reference configuration (R5, R62). -/
def referenceDivisor : BitVec 16 := 17

/-- GENCFG_REF(g, s): divisor 17, enabled, source `s`, generator `g` (R5, R62). -/
def gencfgRef (g s : BitVec 4) : Word := gencfgWord g s referenceDivisor true

/-- CLKROUTE_REF(g): route generator `g` to the ASC, enabled (R62). -/
def clkrouteRef (p : Config.Params) (g : BitVec 4) : Word := clkrouteWord p.ascCid g true

end Sys2Proof.Machine
end

