-- ==== Sys2Proof/Machine/State.lean ====
section
/-! DEFINITION. The machine's state as plain data (spec/10_state.md R10): the hardware's registers and tables,
the fault and refusal marks, the ghost logs, and the model's own inputs (R37). Every register holds a value at
reset (R35; log 8 and log 9 for the values the spec leaves open). -/

namespace Sys2Proof.Machine

/-- The fault causes (R200): the codes that `cause` holds. Each is raised by a HOST write, through
`State.raiseFault` of Machine/Ops.lean, as a NEXT state with `undef` set (R204), so no step ends in
`Outcome.fault`. Safe: after it the hardware is a free value and nothing can be proved of it. -/
inductive Fault where
  /-- U1: raised by WR.GENCFG and WR.CLKROUTE while the CG is busy (R81, R83). Safe. -/
  | u1
  /-- U2: raised by WR.CTRLA while an enable or configuration item is pending (R100). Safe. -/
  | u2
  /-- U3: raised by WR.CLKCTRL0 and WR.SERCTRL0 when the ASC is not fully and effectively disabled
  (R102, R104). Safe. -/
  | u3
  /-- U4: raised by WR.CLKCTRL0 and WR.SERCTRL0 while the register's own item is pending (R102, R104). Safe. -/
  | u4
  /-- U5: raised by WR.DATA0 while TXRDY0 reads 0 (R122). Safe. -/
  | u5
  deriving DecidableEq, Repr

/-- Why a step gives no next state. -/
inductive Refusal where
  /-- An instruction that has no meaning yet: raised by an arm of `exec` (none in this model). Safe. -/
  | notModelled (mnemonic : String)
  /-- Raised by every HOST transaction once `refused` is set: "if refused then no rule applies (the run is
  already outside the spec)" (R70). It carries the reason recorded. Safe: the run stops. -/
  | afterRefusal (reason : Option Reason)
  deriving DecidableEq, Repr

/-- What the model records with a fault: the code and the transaction (R200). -/
structure FaultRecord where
  code : Fault
  sel : BitVec 10
  wdata : Word
  deriving DecidableEq, Repr

/-- The hardware's own state: the rows of R10's tuple from `ctrla` to `cnt`. -/
structure Hardware where
  /-- written value of CTRLA (R15) -/
  ctrla : Enables
  /-- effective enables (R16) -/
  eff : Enables
  /-- written value of CLKCTRL0 (R17) -/
  clkctrl0 : Word
  /-- written value of SERCTRL0 (R18) -/
  serctrl0 : Word
  /-- the underrun flag TXUR0 (R21) -/
  txur0 : Bool
  /-- the pending items (R23) -/
  pend : Pend
  /-- the last word written to DATA0 (R11) -/
  datareg : Word
  /-- the slot `datareg` is for (R11) -/
  datatag : Slot
  /-- the holding register (R11) -/
  hold : Option Held
  /-- the shift register (R11); its word is a free one where it is `any` (log 7) -/
  sh : OrAny Word
  /-- the write-slot pointer (R12) -/
  wslot : Slot
  /-- the frame position counter (R13) -/
  t : Fin 64
  /-- the model's own: a serial clock period has begun since the clock unit last started. R148 makes the data bit of
  the very first period `any`, and R34 gives the pins from that period on (log 22). -/
  begun : Bool
  /-- the model's own: a serial clock period has begun since the serializer last started. Until then SD carries no bit
  of this run, and D29 makes it `any` "in every bit not yet loaded" (R34; log 22). -/
  serBegun : Bool
  /-- the CG busy flag (R25) -/
  cgbusy : Bool
  /-- written value of GENCFG (R26) -/
  gencfg : Word
  /-- written value of CLKROUTE (R27) -/
  clkroute : Word
  /-- the CG write not yet taken effect (R29) -/
  cgpend : CgPend
  /-- the effective generator table (R28); the entries below N_GEN exist (log 11) -/
  gen : Vector GenEntry 16
  /-- the effective routing table (R28) -/
  chan : Vector ChanEntry 64
  /-- the divider phases (R28) -/
  cnt : Vector Nat 16
  deriving DecidableEq, Repr, Inhabited

end Sys2Proof.Machine

namespace Sys2Proof.Config

/-- Free value: the hardware after a fault, "nothing else is specified" (R204, R31; log 4, log 6). It stands
here because its type does. -/
opaque freeHardware : Nat → Machine.Hardware

end Sys2Proof.Config

namespace Sys2Proof.Machine

/-- The whole state: R10's tuple and the model's own inputs. -/
structure State where
  /-- the hardware's own state -/
  hw : Hardware
  /-- the sticky fault bit (R31) -/
  undef : Bool
  /-- the fault's code and transaction (R31, R200) -/
  cause : Option FaultRecord
  /-- the sticky refusal mark of the model (R32) -/
  refused : Bool
  /-- the refusal's reason (R32) -/
  reason : Option Reason
  /-- ghost log of HOST transactions (R33) -/
  buslog : List BusEntry
  /-- ghost log of slot starts (R33) -/
  txlog : List TxEntry
  /-- ghost log of serial clock periods (R33) -/
  pinlog : List PinEntry
  /-- the model's own: the data word of the last HOST read (R61; log 9) -/
  result : Word
  /-- the model's own: the HOST's program still to run, an input (R37; log 2) -/
  host : List HostOp
  /-- the model's own: the playback loop's variables where the HOST runs that loop, an input (R37, R180; log 21) -/
  player : Option Player
  /-- the model's own: the agents' turns to come, an input (R37; log 1) -/
  schedule : List Turn
  /-- the model's own: how many free values have been drawn (log 6) -/
  fresh : Nat
  deriving DecidableEq, Repr

end Sys2Proof.Machine

namespace Sys2Proof.Config

/-- Free value: what a pin does in a period for which R34 calls it `any` (R31, R34; log 7). It stands here because
its type does. -/
opaque freePins : Machine.State → Machine.PinLevels

end Sys2Proof.Config

namespace Sys2Proof.Machine

/-- No enable bit set (R35). -/
def Enables.none : Enables := { enable := false, cken0 := false, seren0 := false }

/-- No item pending (R35). -/
def Pend.empty : Pend :=
  { enable := false, cken0 := false, seren0 := false, data0 := false, clkctrl0 := false, serctrl0 := false }

/-- The hardware right after RESET (R35, R220). `datareg`, `datatag` and `sh` are `any` there; this model names 0 for
all three, `sh` with its mark (log 8). No serial clock period has begun (log 22). -/
def Hardware.reset : Hardware where
  ctrla := Enables.none
  eff := Enables.none
  clkctrl0 := 0
  serctrl0 := 0
  txur0 := false
  pend := Pend.empty
  datareg := 0
  datatag := 0
  hold := none
  sh := .free 0
  wslot := 0
  t := 0
  begun := false
  serBegun := false
  cgbusy := false
  gencfg := 0
  clkroute := 0
  cgpend := .none
  gen := Vector.replicate 16 { src := 0, div := 1, genen := false }
  chan := Vector.replicate 64 { gen := 0, clken := false }
  cnt := Vector.replicate 16 0

/-- The machine right after RESET (R35, R220, R221). The model's own inputs are empty (log 2, log 9). -/
def State.reset : State where
  hw := Hardware.reset
  undef := false
  cause := none
  refused := false
  reason := none
  buslog := []
  txlog := []
  pinlog := []
  result := 0
  host := []
  player := none
  schedule := []
  fresh := 0

end Sys2Proof.Machine
end

