-- ==== Sys2Proof/Machine/Flags.lean ====
section
/-! DEFINITION. The values derived from the state and never stored (spec/10_state.md R10): the run conditions,
the flags, the images that reads return, the pins and the driver-visible state. -/

namespace Sys2Proof.Machine

/-- Whether an item is in `pend` (R9 `a in pend`). -/
def Pend.has (p : Pend) : Item → Bool
  | .enable => p.enable
  | .cken0 => p.cken0
  | .seren0 => p.seren0
  | .data0 => p.data0
  | .clkctrl0 => p.clkctrl0
  | .serctrl0 => p.serctrl0

/-- Some item of `ENSYNC = {ENABLE, CKEN0, SEREN0}` is pending (spec/42_control_config.md). -/
def Pend.anyEnsync (p : Pend) : Bool := p.enable || p.cken0 || p.seren0

/-- Some item of `CFGSYNC = {CLKCTRL0, SERCTRL0}` is pending (spec/42_control_config.md). -/
def Pend.anyCfgsync (p : Pend) : Bool := p.clkctrl0 || p.serctrl0

/-- Some enable bit is set: the value is not `000`. -/
def Enables.any (e : Enables) : Bool := e.enable || e.cken0 || e.seren0

/-- `clk_run`: the clock unit makes SCK and FS (R16). -/
def Hardware.clkRun (h : Hardware) : Bool := h.eff.enable && h.eff.cken0

/-- `ser_run`: the serializer is active (R16). -/
def Hardware.serRun (h : Hardware) : Bool := h.eff.enable && h.eff.seren0

/-- `TXRDY0`: a DATA0 write will be accepted (R20). -/
def Hardware.txrdy0 (h : Hardware) : Bool := h.serRun && h.hold.isNone && !h.pend.data0

/-- `asc_active`: `ctrla != 000 or eff != 000` (R81). -/
def Hardware.ascActive (h : Hardware) : Bool := h.ctrla.any || h.eff.any

/-- The route of the ASC: `chan[ASC_CID]`. -/
def Hardware.ascChan (p : Config.Params) (h : Hardware) : ChanEntry := h.chan[p.ascCid.toFin]

/-- `asc_clk_on`: the ASC receives its clock (R30). -/
def Hardware.ascClkOn (p : Config.Params) (h : Hardware) : Bool :=
  (h.ascChan p).clken && h.gen[(h.ascChan p).gen.toFin].genen

/-- `REFCFG`: both configuration registers hold the reference configuration (R14, R107). -/
def Hardware.refcfg (h : Hardware) : Bool := h.clkctrl0 == clkctrl0Ref && h.serctrl0 == serctrl0Ref

/-- `QUIET`: no enable or configuration item is pending (R14). -/
def Hardware.quiet (h : Hardware) : Bool := !h.pend.anyEnsync && !h.pend.anyCfgsync

/-- The image of CTRLA: SEREN0 bit 4, CKEN0 bit 2, ENABLE bit 1 of the written value (R101). -/
def ctrlaImage (h : Hardware) : Word :=
  (Word.ofFlag h.ctrla.seren0 <<< 4) ||| (Word.ofFlag h.ctrla.cken0 <<< 2) ||| (Word.ofFlag h.ctrla.enable <<< 1)

/-- The image of INTFLAG: TXUR0 bit 12, TXRDY0 bit 8 (R120). -/
def intflagImage (h : Hardware) : Word :=
  (Word.ofFlag h.txur0 <<< 12) ||| (Word.ofFlag h.txrdy0 <<< 8)

/-- The image of SYNCBUSY: one bit per pending item (R22, R106). -/
def syncbusyImage (h : Hardware) : Word :=
  (Word.ofFlag h.pend.enable <<< 1) ||| (Word.ofFlag h.pend.cken0 <<< 2) ||| (Word.ofFlag h.pend.seren0 <<< 4)
    ||| (Word.ofFlag h.pend.data0 <<< 8) ||| (Word.ofFlag h.pend.clkctrl0 <<< 10)
    ||| (Word.ofFlag h.pend.serctrl0 <<< 11)

/-- The image of CGSTATUS: bit 7 (R25, R80). -/
def cgstatusImage (h : Hardware) : Word := Word.ofFlag h.cgbusy <<< 7

/-- The serial clock period that is running: the last entry of `pinlog`. There is none after a fault (R31), none while the
clock unit is off, where no period elapses and a word on the pin is cut short (R16, I10), and none between a start of
the clock unit and its first SCKTICK (log 22). -/
def State.period (s : State) : Option PinEntry :=
  if s.undef || !s.hw.clkRun || !s.hw.begun then none else s.pinlog.getLast?

/-- The pins in the serial clock period that is running (R34): FS and SD have the values its SCKTICK appended to
`pinlog` and SCK makes one cycle; with no such period all three are `any`, "any value on the pins while a unit is not
running and for a word cut short" (I10). SD is `any` too while `ser_run` is false (R34), and from a start of the
serializer to the next SCKTICK, because the entry is then one of an earlier run, and SD is `any` "in every bit not yet
loaded" (D29, I22). Where a pin is `any`, what it does is a free value (log 7). -/
def State.pins (s : State) : Pins :=
  let free := Config.freePins s
  match s.period with
  | none => { fs := .free free.fs, sck := .free free.sck, sd := .free free.sd }
  | some e =>
    { fs := .val e.fs
      sck := .val 1
      sd := if s.hw.serRun && s.hw.serBegun then e.sd else .free free.sd }

/-- The names of the source's state machine (R14). Configured and Disabled are the same hardware states. -/
inductive DriverState where
  | uninitialized
  | configuredOrDisabled
  | enabled
  deriving DecidableEq, Repr

/-- The ASC's registers are as reset leaves them, every one that R35 gives a value. The CG's may differ: `configure`
"of another consumer's clock" and the ASC's own `configure` before `init` leave the driver-visible state as it is
(R175, R177; log 24). -/
def Hardware.ascAtReset (h : Hardware) : Bool :=
  h.ctrla == Enables.none && h.eff == Enables.none && h.clkctrl0 == 0 && h.serctrl0 == 0 && !h.txur0 &&
    h.pend == Pend.empty && h.hold.isNone && h.sh.any && h.wslot == 0 && h.t == 0 && !h.begun &&
    !h.serBegun

/-- The clock of the reference configuration (R5): the ASC receives a generator that divides the reference oscillator
by 17. -/
def Hardware.refClock (p : Config.Params) (h : Hardware) : Bool :=
  (h.ascChan p).clken && h.gen[(h.ascChan p).gen.toFin] ==
    { src := Config.referenceSource, div := referenceDivisor, genen := true }

/-- The driver-visible state a state rests in; `none` for a transitional state (R14). -/
def State.driverState (s : State) : Option DriverState :=
  if s.undef || s.refused then none
  else if s.hw.ascAtReset then some .uninitialized
  else if s.hw.refcfg && s.hw.quiet && !s.hw.ctrla.any && !s.hw.eff.any then some .configuredOrDisabled
  else if s.hw.refcfg && s.hw.quiet && s.hw.ctrla == { enable := true, cken0 := true, seren0 := true }
      && s.hw.eff == { enable := true, cken0 := true, seren0 := true } then some .enabled
  else none

end Sys2Proof.Machine
end

