-- ==== Sys2Proof/Machine/Ops.lean ====
section
/-! DEFINITION. The shared operations: the sets of pending items, the logs, raising a fault (spec/60_exceptions.md
R204), refusing (R9, R201), what a HOST transaction does while `undef` is set (R31, R70), and the read and
write primitives of the bus (spec/40_bus_access.md R70 to R72). A register's own rule is a function of the
hardware that accepts, faults or refuses; the write primitive turns it into a step. -/

namespace Sys2Proof.Machine

/-- The outcome of one step of this machine. -/
abbrev Out := Host.Outcome State Fault Refusal

/-! ### The pending set (R9 `pend += …`, `pend -= …`) -/

/-- The set with one item put in or taken out. -/
def Pend.put (p : Pend) (i : Item) (b : Bool) : Pend :=
  match i with
  | .enable => { p with enable := b }
  | .cken0 => { p with cken0 := b }
  | .seren0 => { p with seren0 := b }
  | .data0 => { p with data0 := b }
  | .clkctrl0 => { p with clkctrl0 := b }
  | .serctrl0 => { p with serctrl0 := b }

/-- `pend += {i}`. -/
def Pend.add (p : Pend) (i : Item) : Pend := p.put i true

/-- `pend -= {i}`. -/
def Pend.drop (p : Pend) (i : Item) : Pend := p.put i false

/-- `pend += {ENABLE, CKEN0, SEREN0}` (R100). -/
def Pend.addEnsync (p : Pend) : Pend := { p with enable := true, cken0 := true, seren0 := true }

/-! ### Updates of the state that are not the hardware's registers -/

/-- The state with other hardware. -/
def State.setHw (s : State) (h : Hardware) : State := { s with hw := h }

/-- One more entry of `buslog` (R70). -/
def State.logBus (s : State) (sel : BitVec 10) (data : Word) : State :=
  { s with buslog := s.buslog ++ [{ sel := sel, data := data }] }

/-- One more entry of `txlog` (R149). -/
def State.logTx (s : State) (e : TxEntry) : State := { s with txlog := s.txlog ++ [e] }

/-- One more entry of `pinlog` (R148). -/
def State.logPin (s : State) (e : PinEntry) : State := { s with pinlog := s.pinlog ++ [e] }

/-- The word a step draws where the spec says `any` (R9; log 7). -/
def State.draw (s : State) : Word := Config.freeWord s.fresh

/-- The state after that draw: the next one is another free value. -/
def State.drawn (s : State) : State := { s with fresh := s.fresh + 1 }

/-- The hardware a free value: what is left of it where the spec specifies nothing (R31, R204; log 4, log 6). -/
def State.scramble (s : State) : State :=
  { s with hw := Config.freeHardware s.fresh, fresh := s.fresh + 1 }

/-- `raise Fault(U<n>)`: `undef <- true`, `cause <-` the code and the transaction; "the write that caused it has
no other specified effect" (R9, R200, R204). -/
def State.raiseFault (s : State) (u : Fault) (sel : BitVec 10) (wdata : Word) : State :=
  { s.scramble with undef := true, cause := some { code := u, sel := sel, wdata := wdata } }

/-- `refuse(X<n>)`: `refused <- true`, `reason <- X<n>`; "a refused transaction changes no hardware state"
(R9, R70). -/
def State.refuse (s : State) (x : Reason) : State := { s with refused := true, reason := some x }

/-- A HOST transaction while `undef` is set: "result <- any; state unspecified" (R70, R31). -/
def State.unspecified (s : State) : State := { s.scramble with result := s.draw }

/-! ### The HOST step (R70) -/

/-- The first two checks of R70: after a refusal no rule applies; after a fault the result is `any` and the
state unspecified; else the transaction goes on. -/
def guarded (s : State) (k : Out) : Out :=
  if s.refused then .refused (.afterRefusal s.reason)
  else if s.undef then .next s.unspecified
  else k

/-- What a register's rule decides about a write: the new hardware, a fault, or a refusal (R7). -/
inductive Verdict where
  | accept (h : Hardware)
  | fault (u : Fault)
  | refuse (x : Reason)
  deriving DecidableEq, Repr

/-- The state a verdict leads to. -/
def State.apply (s : State) (sel : BitVec 10) (wdata : Word) : Verdict → State
  | .accept h => s.setHw h
  | .fault u => s.raiseFault u sel wdata
  | .refuse x => s.refuse x

/-- The write primitive (R72): R70's checks, the reserved bits (X5), the entry of `buslog`, then the rule of
the register. -/
def busWrite (r : Reg) (wdata : Word) (rule : Hardware → Verdict) (s : State) : Out :=
  guarded s (
    if wdata &&& reservedMask r ≠ 0 then .next (s.refuse .x5)
    else .next ((s.logBus (selector r .write) wdata).apply (selector r .write) wdata (rule s.hw)))

/-- The read primitive (R71): R70's checks, then the register's image as the result, logged. "It changes no
state except `buslog`"; `result` is this model's place for the word returned. -/
def busRead (r : Reg) (image : Hardware → Word) (s : State) : Out :=
  guarded s (
    .next { s.logBus (selector r .read) (image s.hw) with result := image s.hw })

/-- A transaction that decoding rejects: R70's first two checks, then the refusal (R70, R59). -/
def rejectRequest (x : Reason) (s : State) : Out := guarded s (.next (s.refuse x))

/-! ### Transactions by address (R71, R72, R40) -/

/-- The selector of an address: the block it falls in and its offset there; none outside both blocks, where a
transaction "is not a step of this model" (R40, R71). -/
def addressSel (p : Config.Params) (addr : Nat) (d : Dir) : Option (BitVec 10) :=
  if p.ascBase ≤ addr ∧ addr < p.ascBase + 0x100 then
    some ((0 : BitVec 1) ++ d.bit ++ BitVec.ofNat 8 (addr - p.ascBase))
  else if p.cgBase ≤ addr ∧ addr < p.cgBase + 0x100 then
    some ((1 : BitVec 1) ++ d.bit ++ BitVec.ofNat 8 (addr - p.cgBase))
  else none

/-- `MemRead(addr, size)` as a request (R71). -/
def memRead (p : Config.Params) (addr size : Nat) : Option Request :=
  (addressSel p addr .read).map fun sel => { sel := sel, size := size, wdata := 0 }

/-- `MemWrite(addr, size, v)` as a request (R72). -/
def memWrite (p : Config.Params) (addr size : Nat) (v : Word) : Option Request :=
  (addressSel p addr .write).map fun sel => { sel := sel, size := size, wdata := v }

end Sys2Proof.Machine
end

