-- ==== Sys2Proof/Machine/Agents.lean ====
section
/-! DEFINITION. The steps the hardware takes on its own: CGSYNC (spec/41_clock_generator.md R85), SYNC of each
item with RUN_EDGES (spec/44_agents_timing_serializer.md R140 to R146), and the chain from a source tick to the
serial data bit (R87, R147 to R151). -/

namespace Sys2Proof.Machine

/-! ### CGSYNC (R85) -/

/-- The CG write takes effect: the table entry is written, a generator's divider restarts. -/
def Hardware.applyCgPend (h : Hardware) : Hardware :=
  match h.cgpend with
  | .none => h
  | .gen v =>
    { h with
      gen := h.gen.set (gencfgId v).toNat (gencfgEntry v) (gencfgId v).isLt
      cnt := h.cnt.set (gencfgId v).toNat 0 (gencfgId v).isLt }
  | .route v => { h with chan := h.chan.set (clkrouteCid v).toNat (clkrouteEntry v) (clkrouteCid v).isLt }

/-- CGSYNC: apply the pending write, then `cgpend <- none`, `cgbusy <- 0` (R85). -/
def Hardware.cgSync (h : Hardware) : Hardware := { h.applyCgPend with cgpend := .none, cgbusy := false }

/-! ### SYNC (R140 to R146) -/

/-- RUN_EDGES: what starts and stops when an effective enable changes (R146). `oldClk` and `oldSer` are the run
conditions before the change, `draw` the word that stands for `any`. A unit that starts has begun no period (log 22). -/
def Hardware.runEdges (draw : Word) (oldClk oldSer : Bool) (h : Hardware) : Hardware :=
  let h := if h.clkRun && !oldClk then { h with t := 0, begun := false } else h
  let h := if h.serRun && !oldSer then { h with wslot := 0, hold := none, sh := .free draw, serBegun := false }
    else h
  if oldSer && !h.serRun then { h with hold := none, pend := h.pend.drop .data0, sh := .free draw } else h

/-- SYNC(ENABLE) (R141). -/
def Hardware.syncEnable (draw : Word) (h : Hardware) : Hardware :=
  { h with eff := { h.eff with enable := h.ctrla.enable }, pend := h.pend.drop .enable }.runEdges draw
    h.clkRun h.serRun

/-- SYNC(CKEN0) (R142). -/
def Hardware.syncCken0 (draw : Word) (h : Hardware) : Hardware :=
  { h with eff := { h.eff with cken0 := h.ctrla.cken0 }, pend := h.pend.drop .cken0 }.runEdges draw
    h.clkRun h.serRun

/-- SYNC(SEREN0) (R143). -/
def Hardware.syncSeren0 (draw : Word) (h : Hardware) : Hardware :=
  { h with eff := { h.eff with seren0 := h.ctrla.seren0 }, pend := h.pend.drop .seren0 }.runEdges draw
    h.clkRun h.serRun

/-- SYNC(DATA0): the word crosses into the holding register (R145). -/
def Hardware.syncData0 (h : Hardware) : Hardware :=
  { h with hold := some { word := h.datareg, slot := h.datatag }, pend := h.pend.drop .data0 }

/-- SYNC of one item: R141 to R145. A configuration item only leaves `pend` (R144). -/
def Hardware.syncItem (draw : Word) (h : Hardware) : Item → Hardware
  | .enable => h.syncEnable draw
  | .cken0 => h.syncCken0 draw
  | .seren0 => h.syncSeren0 draw
  | .data0 => h.syncData0
  | .clkctrl0 => { h with pend := h.pend.drop .clkctrl0 }
  | .serctrl0 => { h with pend := h.pend.drop .serctrl0 }

/-! ### The frame timing generator and the serializer (R147 to R151) -/

/-- The position in the data stream: `d <- (t - BD) mod FL`, BD = 1, FL = 64 (R148). -/
def dataPosition (t : Fin 64) : Fin 64 := t - 1

/-- The slot whose bit is on the pin: `d div SB`, SB = 32 (R148). -/
def dataSlot (d : Fin 64) : Slot := ⟨d.val / 32, by omega⟩

/-- The bit number within the slot, 0 = first: `d mod SB` (R148). -/
def dataBit (d : Fin 64) : Fin 32 := ⟨d.val % 32, by omega⟩

/-- SD_BIT(k) = sh[31 - k], most significant bit first; `any` if `sh` is (R150). -/
def sdBit (k : Fin 32) (sh : OrAny Word) : OrAny Bool where
  value := sh.value.getLsbD (31 - k.val)
  any := sh.any

/-- FS_LEVEL(t): one level for `t` in 0 to 31, the other for 32 to 63 (R151). -/
def fsLevel (p : Config.Params) (t : Fin 64) : Bool :=
  if t.val < 32 then p.fsSlot0Level else !p.fsSlot0Level

/-- SLOT_START(s): take the held word if it is for this slot, else underrun, the word on the pin `any` (R149). -/
def State.slotStart (draw : Word) (s : State) (slot : Slot) : State :=
  match s.hw.hold with
  | some held =>
    if held.slot = slot then
      (s.setHw { s.hw with sh := .val held.word, hold := none }).logTx (.loaded slot held.word)
    else (s.setHw { s.hw with txur0 := true, sh := .free draw }).logTx (.underrun slot)
  | none => (s.setHw { s.hw with txur0 := true, sh := .free draw }).logTx (.underrun slot)

/-- The first part of SCKTICK: a slot starts where the bit number is 0 and the serializer runs (R148). -/
def State.sckSlot (draw : Word) (s : State) : State :=
  if s.hw.serRun && dataBit (dataPosition s.hw.t) == 0 then s.slotStart draw (dataSlot (dataPosition s.hw.t)) else s

/-- The very first period after the clock unit starts: there is no previous frame (R148's corner case). -/
def Hardware.firstPeriod (h : Hardware) : Bool := h.t == 0 && !h.begun

/-- The pins of the period that begins, `t` being its number and `s` the state after the slot start (R148). The data
bit is `any` where the serializer does not run, where the shift register is `any`, and in the very first period. -/
def State.sckPins (p : Config.Params) (draw : Word) (s : State) : PinEntry where
  fs := fsLevel p s.hw.t
  sd := if s.hw.serRun && !s.hw.firstPeriod then sdBit (dataBit (dataPosition s.hw.t)) s.hw.sh
    else .free (draw.getLsbD 0)

/-- SCKTICK: one serial clock period begins (R148). Each period draws one word, for whatever is `any` in it (R9). -/
def State.sckTick (p : Config.Params) (s : State) : State :=
  let u := s.sckSlot s.draw
  ((u.logPin (u.sckPins p s.draw)).setHw { u.hw with t := u.hw.t + 1, begun := true, serBegun := true }).drawn

/-- ASC_CLOCK_PERIOD: one period of the generated clock is one serial clock period while `clk_run` holds, and is
discarded otherwise (R147). -/
def State.ascClockPeriod (p : Config.Params) (s : State) : State := if s.hw.clkRun then s.sckTick p else s

/-! ### The divider (R87) -/

/-- The phase of generator `g` set to `n`. -/
def Hardware.setCnt (h : Hardware) (g : Fin 16) (n : Nat) : Hardware := { h with cnt := h.cnt.set g.val n g.isLt }

/-- Generator `g` feeds the ASC: `chan[ASC_CID].CLKEN = 1 and chan[ASC_CID].GEN = g` (R87). -/
def Hardware.feedsAsc (p : Config.Params) (h : Hardware) (g : Fin 16) : Bool :=
  (h.ascChan p).clken && (h.ascChan p).gen.toFin == g

/-- The body of SRCTICK's loop for generator `g` (R87). -/
def State.tickGen (p : Config.Params) (src : BitVec 4) (s : State) (g : Fin 16) : State :=
  let e := s.hw.gen[g]
  if g.val < p.nGen ∧ e.genen ∧ e.src = src then
    if s.hw.cnt[g] + 1 = e.div.toNat then
      if s.hw.feedsAsc p g then (s.setHw (s.hw.setCnt g 0)).ascClockPeriod p else s.setHw (s.hw.setCnt g 0)
    else s.setHw (s.hw.setCnt g (s.hw.cnt[g] + 1))
  else s

/-- SRCTICK(s): one period of source oscillator `src` elapses (R87). -/
def State.srcTick (p : Config.Params) (src : BitVec 4) (s : State) : State :=
  (List.finRange 16).foldl (State.tickGen p src) s

/-! ### When an agent's step is enabled (R85, R87, R140) -/

/-- Whether a turn's agent has a step. The HOST's is decided by its program (Machine/Turns.lean). -/
def State.enabled (p : Config.Params) (s : State) : Turn → Bool
  | .host => !s.host.isEmpty || s.player.isSome
  | .cgSync => !s.undef && s.hw.cgpend != .none
  | .sync i => !s.undef && s.hw.ascClkOn p && s.hw.pend.has i
  | .srcTick src => !s.undef && decide (src.toNat < p.nSrc)

/-- The step of CGSYNC, SYNC or SRCTICK. A SYNC step draws one word, for a shift register it makes `any` (R9). -/
def State.agentStep (p : Config.Params) (s : State) : Turn → State
  | .host => s
  | .cgSync => s.setHw s.hw.cgSync
  | .sync i => (s.setHw (s.hw.syncItem s.draw i)).drawn
  | .srcTick src => s.srcTick p src

/-- An agent's turn: its step where it is enabled; while `undef` is set no agent takes a specified step and the
hardware is unspecified (R204; log 6); otherwise the turn passes (log 3). -/
def State.agentTurn (p : Config.Params) (s : State) (turn : Turn) : State :=
  if s.undef then s.scramble
  else if s.enabled p turn then s.agentStep p turn
  else s

/-! ### The arithmetic of the clock (R86, R89, R90) -/

/-- The frequency of a generator's output, `F_SRC / DIV` as a rational number; none if it is not enabled (R86). -/
def outputHz (sourceHz : Nat) (e : GenEntry) : Option ℚ :=
  if e.genen then some (sourceHz / e.div.toNat) else none

/-- Serial clock periods per frame, `FL = NS * SB` (R4). -/
def framePeriods : Nat := 2 * 32

/-- Source periods per slot under a divisor (R90: 544 for 17). -/
def slotSourceTicks (div : Nat) : Nat := 32 * div

/-- Source periods per frame under a divisor (R90: 1088 for 17). -/
def frameSourceTicks (div : Nat) : Nat := framePeriods * div

end Sys2Proof.Machine
end

