-- ==== Sys2Proof/Machine/ClockGen.lean ====
section
/-! DEFINITION. The clock generator's transactions (spec/41_clock_generator.md R80 to R84, R88). -/

namespace Sys2Proof.Machine

/-- RD.CGSTATUS (R80). -/
def execRdCgstatus (s : State) : Out := busRead .cgstatus cgstatusImage s

/-- RD.GENCFG (R82): the last value written, not a view of `gen`. -/
def execRdGencfg (s : State) : Out := busRead .gencfg Hardware.gencfg s

/-- RD.CLKROUTE (R84): the last value written, not a view of `chan`. -/
def execRdClkroute (s : State) : Out := busRead .clkroute Hardware.clkroute s

/-- X6 for GENCFG: `ID >= N_GEN or SRC >= N_SRC or DIV = 0` (R81). -/
def gencfgOutOfRange (p : Config.Params) (w : Word) : Bool :=
  gencfgDiv w == 0 || decide (p.nGen ≤ (gencfgId w).toNat) || decide (p.nSrc ≤ (gencfgSrc w).toNat)

/-- X8 for GENCFG: the generator is the one feeding an active ASC (R81, R88). -/
def gencfgTouchesAsc (p : Config.Params) (w : Word) (h : Hardware) : Bool :=
  h.ascActive && (h.ascChan p).clken && (h.ascChan p).gen == gencfgId w

/-- The rule of WR.GENCFG (R81): U1, then X6, then X8 (R203). -/
def gencfgRule (p : Config.Params) (w : Word) (h : Hardware) : Verdict :=
  if h.cgbusy then .fault .u1
  else if gencfgOutOfRange p w then .refuse .x6
  else if gencfgTouchesAsc p w h then .refuse .x8
  else .accept { h with gencfg := w, cgpend := .gen w, cgbusy := true }

/-- WR.GENCFG (R81). -/
def execWrGencfg (wdata : Word) (s : State) : Out :=
  busWrite .gencfg wdata (gencfgRule Config.params wdata) s

/-- X6 for CLKROUTE: `GEN >= N_GEN` (R83). -/
def clkrouteOutOfRange (p : Config.Params) (w : Word) : Bool := decide (p.nGen ≤ (clkrouteGen w).toNat)

/-- X8 for CLKROUTE: the consumer is an active ASC (R83, R88). -/
def clkrouteTouchesAsc (p : Config.Params) (w : Word) (h : Hardware) : Bool :=
  h.ascActive && clkrouteCid w == p.ascCid

/-- The rule of WR.CLKROUTE (R83): U1, then X6, then X8 (R203). -/
def clkrouteRule (p : Config.Params) (w : Word) (h : Hardware) : Verdict :=
  if h.cgbusy then .fault .u1
  else if clkrouteOutOfRange p w then .refuse .x6
  else if clkrouteTouchesAsc p w h then .refuse .x8
  else .accept { h with clkroute := w, cgpend := .route w, cgbusy := true }

/-- WR.CLKROUTE (R83). -/
def execWrClkroute (wdata : Word) (s : State) : Out :=
  busWrite .clkroute wdata (clkrouteRule Config.params wdata) s

end Sys2Proof.Machine
end

