-- ==== Sys2Proof/Machine/Control.lean ====
section
/-! DEFINITION. The enable and configuration registers (spec/42_control_config.md R100 to R108). -/

namespace Sys2Proof.Machine

/-- RD.CTRLA (R101): the written value, at once. -/
def execRdCtrla (s : State) : Out := busRead .ctrla ctrlaImage s

/-- The rule of WR.CTRLA (R100, R107, R108): U2 before X7; any of the eight enable values; every write raises
all three items. -/
def ctrlaRule (w : Word) (h : Hardware) : Verdict :=
  if h.pend.anyEnsync || h.pend.anyCfgsync then .fault .u2
  else if (ctrlaFields w).any && !h.refcfg then .refuse .x7
  else .accept { h with ctrla := ctrlaFields w, pend := h.pend.addEnsync }

/-- WR.CTRLA (R100). -/
def execWrCtrla (wdata : Word) (s : State) : Out := busWrite .ctrla wdata (ctrlaRule wdata) s

/-- RD.CLKCTRL0 (R103). -/
def execRdClkctrl0 (s : State) : Out := busRead .clkctrl0 Hardware.clkctrl0 s

/-- U3's condition: the ASC is not fully and effectively disabled (R102, R104). -/
def Hardware.notFullyDisabled (h : Hardware) : Bool := h.ctrla.any || h.eff.any || h.pend.anyEnsync

/-- The rule of WR.CLKCTRL0 (R102): U3 before U4; a reserved field code is stored. -/
def clkctrl0Rule (w : Word) (h : Hardware) : Verdict :=
  if h.notFullyDisabled then .fault .u3
  else if h.pend.clkctrl0 then .fault .u4
  else .accept { h with clkctrl0 := w, pend := h.pend.add .clkctrl0 }

/-- WR.CLKCTRL0 (R102). -/
def execWrClkctrl0 (wdata : Word) (s : State) : Out := busWrite .clkctrl0 wdata (clkctrl0Rule wdata) s

/-- RD.SERCTRL0 (R105). -/
def execRdSerctrl0 (s : State) : Out := busRead .serctrl0 Hardware.serctrl0 s

/-- The rule of WR.SERCTRL0 (R104): U3 before U4. -/
def serctrl0Rule (w : Word) (h : Hardware) : Verdict :=
  if h.notFullyDisabled then .fault .u3
  else if h.pend.serctrl0 then .fault .u4
  else .accept { h with serctrl0 := w, pend := h.pend.add .serctrl0 }

/-- WR.SERCTRL0 (R104). -/
def execWrSerctrl0 (wdata : Word) (s : State) : Out := busWrite .serctrl0 wdata (serctrl0Rule wdata) s

/-- RD.SYNCBUSY (R106): the aggregate busy mask. -/
def execRdSyncbusy (s : State) : Out := busRead .syncbusy syncbusyImage s

end Sys2Proof.Machine
end

