-- ==== Sys2Proof/Machine/DataFlags.lean ====
section
/-! DEFINITION. The transmit serializer's interface (spec/43_data_flags.md R120 to R122). The read of DATA0
(R123) is no transaction of R58: decoding rejects it with X4. -/

namespace Sys2Proof.Machine

/-- RD.INTFLAG (R120): reading clears nothing. -/
def execRdIntflag (s : State) : Out := busRead .intflag intflagImage s

/-- The rule of WR.INTFLAG (R121): a 1 in bit 12 clears TXUR0; bit 8 is ignored; nothing is stored. -/
def intflagRule (w : Word) (h : Hardware) : Verdict :=
  .accept (if intflagTxur0 w then { h with txur0 := false } else h)

/-- WR.INTFLAG (R121). -/
def execWrIntflag (wdata : Word) (s : State) : Out := busWrite .intflag wdata (intflagRule wdata) s

/-- The rule of WR.DATA0 (R122): U5 where TXRDY0 reads 0; else the word is latched for the active slot and the
active slot advances. -/
def data0Rule (w : Word) (h : Hardware) : Verdict :=
  if !h.txrdy0 then .fault .u5
  else .accept { h with datareg := w, datatag := h.wslot, wslot := h.wslot + 1, pend := h.pend.add .data0 }

/-- WR.DATA0 (R122). -/
def execWrData0 (wdata : Word) (s : State) : Out := busWrite .data0 wdata (data0Rule wdata) s

end Sys2Proof.Machine
end

