-- ==== Sys2Proof/Machine/Dispatch.lean ====
section
/-! DEFINITION. One arm per transaction of R58 (spec/30_encoding.md), each one call of its meaning. -/

namespace Sys2Proof.Machine

open Sys2Proof

def exec (i : Instr) (s : State) : Host.Outcome State Fault Refusal :=
  match i with
  | .rdCtrla => Sys2Proof.Machine.execRdCtrla s
  | .wrCtrla wdata => Sys2Proof.Machine.execWrCtrla wdata s
  | .rdClkctrl0 => Sys2Proof.Machine.execRdClkctrl0 s
  | .wrClkctrl0 wdata => Sys2Proof.Machine.execWrClkctrl0 wdata s
  | .rdIntflag => Sys2Proof.Machine.execRdIntflag s
  | .wrIntflag wdata => Sys2Proof.Machine.execWrIntflag wdata s
  | .rdSyncbusy => Sys2Proof.Machine.execRdSyncbusy s
  | .rdSerctrl0 => Sys2Proof.Machine.execRdSerctrl0 s
  | .wrSerctrl0 wdata => Sys2Proof.Machine.execWrSerctrl0 wdata s
  | .wrData0 wdata => Sys2Proof.Machine.execWrData0 wdata s
  | .rdCgstatus => Sys2Proof.Machine.execRdCgstatus s
  | .rdGencfg => Sys2Proof.Machine.execRdGencfg s
  | .wrGencfg wdata => Sys2Proof.Machine.execWrGencfg wdata s
  | .rdClkroute => Sys2Proof.Machine.execRdClkroute s
  | .wrClkroute wdata => Sys2Proof.Machine.execWrClkroute wdata s

end Sys2Proof.Machine
end

