-- ==== Sys2Proof/Machine/HostOps.lean ====
section
/-! DEFINITION. The operations of a HOST program (spec/30_encoding.md R61): WR, RD and POLL of a register, and
`write`, which the playback loop calls (spec/45_driver_sequences.md R174). -/

namespace Sys2Proof.Machine

/-- The read of a register as a request. -/
def readRequest (r : Reg) : Request := { sel := selector r .read, size := 4, wdata := 0 }

/-- The write of a register as a request. -/
def writeRequest (r : Reg) (w : Word) : Request := { sel := selector r .write, size := 4, wdata := w }

/-- `POLL reg, mask, want` (R61, R73). -/
def pollOp (r : Reg) (mask want : Word) : HostOp := .poll (selector r .read) mask want

/-- `WR reg, value` (R61). -/
def wrOp (r : Reg) (w : Word) : HostOp := .issue (writeRequest r w)

/-- `RD reg` (R61). -/
def rdOp (r : Reg) : HostOp := .issue (readRequest r)

/-- One word of `write`: wait until ready, clear the underrun flag, write the word (R174). -/
def writeWord (v : Word) : List HostOp := [.awaitReady, wrOp .intflag txur0Mask, wrOp .data0 v]

/-- `write(left, right)`: left then right, in that fixed order (R174). -/
def driverWrite (left right : Word) : List HostOp := writeWord left ++ writeWord right

end Sys2Proof.Machine
end

