-- ==== Sys2Proof/Machine/Playback.lean ====
section
/-! DEFINITION. The software around the driver (spec/45_driver_sequences.md R178 to R180): the SampleSource's
decode and the widening, as functions of the HOST's buffer, and the playback loop, as the passes the HOST makes for
ever. The buffer is in the HOST's memory and is never read by the hardware (spec/20_memory.md R49). -/

namespace Sys2Proof.Machine

/-- The fixed header's length in bytes (R178). -/
def headerLength : Nat := 44

/-- 16-bit little-endian samples, the low byte first (R178, R49). -/
def samplePairs : List Byte → List (BitVec 16)
  | lo :: hi :: rest => (hi ++ lo) :: samplePairs rest
  | _ => []

/-- The SampleSource's decode; none where the precondition fails, a buffer shorter than the header or with an odd
number of bytes after it (R178; refused X9). The header is skipped and not looked at. -/
def decodeSamples (buf : List Byte) : Option (List (BitVec 16)) :=
  if buf.length < headerLength ∨ (buf.length - headerLength) % 2 ≠ 0 then none
  else some (samplePairs (buf.drop headerLength))

/-- A sample as a signed number: the 16 bits read as two's complement (R178). -/
def sampleValue (x : BitVec 16) : Int := x.toInt

/-- Widening: the sample in the most significant half, zeros below (R179). -/
def widen (x : BitVec 16) : Word := x ++ (0 : BitVec 16)

/-- The next sample of the sequence, "restarting the sequence when it ends" (R180); none where there are no samples
(log 21). -/
def Player.nextSample (x : Player) : Option (BitVec 16) := x.samples[x.pulled % x.samples.length]?

/-- Whether the trigger is active in this pass: always where there is none; else as the HOST's input says, or a free
value where that input has run out (R180; log 21). -/
def Player.triggered (x : Player) (free : Bool) : Bool :=
  match x.trigger with
  | none => true
  | some [] => free
  | some (b :: _) => b

/-- The trigger's values in the passes after this one. -/
def Player.laterTrigger (x : Player) : Option (List Bool) := x.trigger.map List.tail

/-- The loop's variables after one pass. -/
def Player.passed (x : Player) (active : Bool) : Player :=
  { x with pulled := if active then x.pulled + 1 else x.pulled, trigger := x.laterTrigger }

/-- The calls of one pass: where the trigger is active the next sample, widened, to both channels; otherwise nothing
(R180). -/
def Player.calls (x : Player) (active : Bool) : List HostOp :=
  match active, x.nextSample with
  | true, some v => driverWrite (widen v) (widen v)
  | _, _ => []

/-- One pass of the playback loop, made in a turn of the HOST whose program has run out, so that the loop runs for
ever (R180). A state without the loop stays as it is. -/
def State.playbackPass (s : State) : State :=
  match s.player with
  | none => s
  | some x =>
    let active := x.triggered (Config.freeTrigger s.fresh)
    { s with host := x.calls active, player := some (x.passed active), fresh := s.fresh + 1 }

/-- The HOST starts the playback loop on a buffer, after what its program still holds; a malformed buffer is refused
with X9 (R178, R180, R201). -/
def State.startPlayback (s : State) (buf : List Byte) (trigger : Option (List Bool)) : State :=
  match decodeSamples buf with
  | none => s.refuse .x9
  | some xs => { s with player := some { samples := xs, pulled := 0, trigger := trigger } }

end Sys2Proof.Machine
end

