-- ==== Sys2Proof/Machine/Turns.lean ====
section
/-! DEFINITION. Whose turn it is, and the HOST's turn: the bus transaction of its next operation and what is left
of its program after it (spec/00_scope.md R6; spec/40_bus_access.md R70, R73; spec/45_driver_sequences.md R174,
R180). -/

namespace Sys2Proof.Machine

/-- One bus transaction: the transaction a request names runs; a request that names none is refused (R70). -/
def runRequest (r : Request) (s : State) : Out :=
  match decode r with
  | .ok i => exec i s
  | .error x => rejectRequest x s

/-- The transaction an operation of the HOST makes in one step. -/
def HostOp.request : HostOp → Request
  | .issue r => r
  | .poll sel _ _ => { sel := sel, size := 4, wdata := 0 }
  | .awaitReady => readRequest .intflag
  | .awaitReadyBusy _ => readRequest .syncbusy

/-- What is left of an operation after its transaction returned `result`: nothing for WR and RD; POLL again until
the masked result is the wanted one (R73); `write`'s loop until TXRDY0 reads 1 and the DATA0 busy bit 0 (R174). -/
def HostOp.left (result : Word) : HostOp → List HostOp
  | .issue _ => []
  | .poll sel mask want => if result &&& mask = want then [] else [.poll sel mask want]
  | .awaitReady => [.awaitReadyBusy result]
  | .awaitReadyBusy f =>
    if f &&& txrdy0Mask ≠ 0 ∧ result &&& data0Busy = 0 then [] else [.awaitReady]

/-- The program after a transaction: what is left of its operation comes first. -/
def State.resume (op : HostOp) (s : State) : State := { s with host := op.left s.result ++ s.host }

/-- A step's outcome with the HOST's program put right. -/
def resumeOut (op : HostOp) : Out → Out
  | .next s => .next (s.resume op)
  | .fault f => .fault f
  | .refused r => .refused r

/-- The HOST's turn: the transaction of its next operation. With no operation left the playback loop makes its next
pass (R180; log 21), and without that loop the turn passes (log 2). -/
def hostTurn (s : State) : Out :=
  match s.host with
  | [] => .next s.playbackPass
  | op :: rest => resumeOut op (runRequest op.request { s with host := rest })

/-- The turn taken now: the schedule's first, or a free choice where the schedule is empty (R6, R44; log 1). -/
def State.turn (s : State) : Turn :=
  match s.schedule with
  | t :: _ => t
  | [] => Config.freeTurn s.fresh

/-- The state with that turn taken from the schedule. -/
def State.turnTaken (s : State) : State :=
  match s.schedule with
  | _ :: ts => { s with schedule := ts }
  | [] => { s with fresh := s.fresh + 1 }

/-- The step of the agent whose turn it is. -/
def runTurn (p : Config.Params) (turn : Turn) (s : State) : Out :=
  match turn with
  | .host => hostTurn s
  | .cgSync => .next (s.agentTurn p .cgSync)
  | .sync i => .next (s.agentTurn p (.sync i))
  | .srcTick src => .next (s.agentTurn p (.srcTick src))

/-- The state in which the HOST's very next step issues `r`: the request first in its program, and its turn first
in the schedule (log 2). -/
def State.withRequest (s : State) (r : Request) : State :=
  { s with host := .issue r :: s.host, schedule := .host :: s.schedule }

end Sys2Proof.Machine
end

