-- ==== Sys2Proof/Machine/Step.lean ====
section
/-! DEFINITION. One step of the machine: the agent whose turn it is takes its step (spec/00_scope.md R6, R7). -/

namespace Sys2Proof.Machine

/-- One step (R6). -/
def step (s : State) : Host.Outcome State Fault Refusal := runTurn Config.params s.turn s.turnTaken

/-- The state with the instruction `w` where the next step takes it from: the HOST's program and the schedule.
Bits that are no transaction place nothing (log 13). -/
def State.withFetchWord (s : State) (nbits w : Nat) : State :=
  match requestOfBits nbits w with
  | some r => s.withRequest r
  | none => s

end Sys2Proof.Machine
end

