-- ==== Sys2Proof/Machine/Driver.lean ====
section
/-! DEFINITION. The driver operations as programs of the HOST (spec/45_driver_sequences.md R170 to R173; `write`,
R174, is in Machine/HostOps.lean), the state machine they drive (R175), and the driver's choice of a divisor (spec/41_clock_generator.md R89). -/

namespace Sys2Proof.Machine

/-- The poll of the CG busy flag (R46 form b, R170). -/
def pollCg : HostOp := pollOp .cgstatus cgBusyMask 0

/-- The poll of the aggregate busy word (R46 form a, R171 to R173). -/
def pollSync : HostOp := pollOp .syncbusy 0xFFFFFFFF 0

/-- `configure` for a named consumer: the divider's write between two polls, then the route, then a poll (R170). -/
def configureFor (cid : BitVec 6) (id : BitVec 4) (div : BitVec 16) (src : BitVec 4) (enable : Bool) : List HostOp :=
  [pollCg, wrOp .gencfg (gencfgWord id src div enable), pollCg, wrOp .clkroute (clkrouteWord cid id true), pollCg]

/-- `configure(generator_id, divisor, source, enable)`: the consumer is the ASC (R170). -/
def driverConfigure (p : Config.Params) (id : BitVec 4) (div : BitVec 16) (src : BitVec 4) (enable : Bool) :
    List HostOp :=
  configureFor p.ascCid id div src enable

/-- `init(pins, clock_handle)` (R171). -/
def driverInit : List HostOp :=
  [wrOp .ctrla ctrlaNone, pollSync, wrOp .clkctrl0 clkctrl0Ref, wrOp .serctrl0 serctrl0Ref, pollSync]

/-- `enable()` (R172). -/
def driverEnable : List HostOp := [wrOp .ctrla ctrlaAll, pollSync]

/-- `disable()` (R173). -/
def driverDisable : List HostOp := [wrOp .ctrla ctrlaNone, pollSync]

/-- The bring-up order, before the first `write` (R177, R222). -/
def bringUp (p : Config.Params) (id : BitVec 4) (div : BitVec 16) (src : BitVec 4) : List HostOp :=
  driverConfigure p id div src true ++ driverInit ++ driverEnable

/-- The bring-up of the reference configuration on generator `g` (R5, R177): the reference oscillator divided by 17,
so that the two CG writes are GENCFG_REF and CLKROUTE_REF (R62). -/
def bringUpRef (p : Config.Params) (g : BitVec 4) : List HostOp :=
  bringUp p g referenceDivisor Config.referenceSource

/-- The driver operations of R175's table; `configureOther` is "`configure` of another consumer's clock". -/
inductive DriverOp where
  | configureOther
  | init
  | enable
  | disable
  | write
  deriving DecidableEq, Repr

/-- What an operation leads to from a driver-visible state (R175). -/
inductive DriverResult where
  | to (d : DriverState)
  | refused (x : Reason)
  | hang
  deriving DecidableEq, Repr

/-- R175's table. Configured and Disabled are one row, because "the hardware cannot tell them apart" (R14). The
table has no row for `enable` in Enabled; it changes nothing there (vector K14; log 24). -/
def driverNext : DriverState → DriverOp → DriverResult
  | _, .init => .to .configuredOrDisabled
  | .uninitialized, .enable => .refused .x7
  | .configuredOrDisabled, .enable => .to .enabled
  | .enabled, .enable => .to .enabled
  | .enabled, .disable => .to .configuredOrDisabled
  | .uninitialized, .disable => .to .uninitialized
  | .configuredOrDisabled, .disable => .to .configuredOrDisabled
  | .enabled, .write => .to .enabled
  | .uninitialized, .write => .hang
  | .configuredOrDisabled, .write => .hang
  | d, .configureOther => .to d

/-- Software's rule for a divisor: the integer nearest to `F_SRC / (rate * SB * NS)` (R89; not hardware). DESIGN
CHOICE (log 25): a ratio exactly halfway between two integers, such as 7.5, goes to the upper one; R89 says
`round_to_nearest` and not which way a tie goes. -/
def nearestDivisor (sourceHz rate : Nat) : Nat := (2 * sourceHz + rate * 64) / (2 * (rate * 64))

end Sys2Proof.Machine
end

