-- ==== Sys2Proof/WellFormed.lean ====
section
/-! DEFINITION. When a transaction is well formed: a write has no 1 in a bit that its register reserves
(spec/10_state.md section 4; spec/40_bus_access.md R70, case X5 of R59). A read has nothing to check. -/

namespace Sys2Proof

/-- No reserved bit of the register is written as 1 (R59 case X5). -/
def Instr.wellFormed (i : Instr) : Bool :=
  match i.wdata? with
  | none => true
  | some w => w &&& Machine.reservedMask i.reg == 0

end Sys2Proof
end

