-- ==== Sys2Proof/Safety.lean ====
section
/-! DEFINITION. What the statements are said in terms of: a run that is still inside the spec, the invariants the
spec gives, runs, fairness and hangs. -/

namespace Sys2Proof.Machine

/-- No fault recorded and nothing refused: the premise of every claim about a run (R31, R32). -/
def State.Live (s : State) : Prop := s.undef = false ∧ s.refused = false

/-- The fault of R200's table for a well-formed transaction: which write, in which state of the hardware. The
first row that applies, U3 before U4 (R203). -/
def faultOf (i : Instr) (h : Hardware) : Option Fault :=
  match i with
  | .wrGencfg _ | .wrClkroute _ => if h.cgbusy then some .u1 else none
  | .wrCtrla _ =>
    if h.pend.enable || h.pend.cken0 || h.pend.seren0 || h.pend.clkctrl0 || h.pend.serctrl0 then some .u2 else none
  | .wrClkctrl0 _ => if h.notFullyDisabled then some .u3 else if h.pend.clkctrl0 then some .u4 else none
  | .wrSerctrl0 _ => if h.notFullyDisabled then some .u3 else if h.pend.serctrl0 then some .u4 else none
  | .wrData0 _ => if h.txrdy0 then none else some .u5
  | .wrIntflag _ => none
  | .rdCtrla | .rdClkctrl0 | .rdIntflag | .rdSyncbusy | .rdSerctrl0 => none
  | .rdCgstatus | .rdGencfg | .rdClkroute => none

/-- The transaction the HOST's next operation makes in this step, if it is the HOST's turn and it has one. -/
def State.nextInstr (s : State) : Option Instr :=
  match s.turn, s.host with
  | .host, op :: _ =>
    match decode op.request with
    | .ok i => some i
    | .error _ => none
  | _, _ => none

/-! ### Invariants of the hardware in a fault-free state -/

/-- `cgbusy = 1` exactly when `cgpend` is not none (R29). -/
def Hardware.CgBusyExact (h : Hardware) : Prop := h.cgbusy = true ↔ h.cgpend ≠ .none

/-- The phase of every divider runs from 0 to `DIV - 1` (R28), so every DIV is at least 1; the pending write
keeps it so. -/
def Hardware.DividersInRange (h : Hardware) : Prop :=
  (∀ g : Fin 16, h.cnt[g] < h.gen[g].div.toNat) ∧ ∀ v, h.cgpend = .gen v → gencfgDiv v ≠ 0

/-- The tables name only generators and sources that exist, and so does the pending write (R26, R27, R81, R83). -/
def Hardware.TablesInRange (p : Config.Params) (h : Hardware) : Prop :=
  (∀ g : Fin 16, h.gen[g].genen = true → g.val < p.nGen ∧ h.gen[g].src.toNat < p.nSrc) ∧
  (∀ c : Fin 64, h.chan[c].gen.toNat < p.nGen) ∧
  (∀ v, h.cgpend = .gen v → (gencfgId v).toNat < p.nGen ∧ (gencfgSrc v).toNat < p.nSrc) ∧
  (∀ v, h.cgpend = .route v → (clkrouteGen v).toNat < p.nGen)

/-- An effective enable follows its written value: they agree unless the item is pending (R16, R23). -/
def Hardware.EffFollows (h : Hardware) : Prop :=
  (h.pend.enable = false → h.eff.enable = h.ctrla.enable) ∧
  (h.pend.cken0 = false → h.eff.cken0 = h.ctrla.cken0) ∧
  (h.pend.seren0 = false → h.eff.seren0 = h.ctrla.seren0)

/-- While a configuration item is pending nothing is enabled and no enable item is pending (R144: "No unit is
running when this step happens"). -/
def Hardware.ConfigQuiet (h : Hardware) : Prop :=
  h.pend.anyCfgsync = true → h.notFullyDisabled = false

/-- Where an enable bit is set, written or effective, the configuration is the reference configuration (R107). -/
def Hardware.RunsReference (h : Hardware) : Prop := h.ascActive = true → h.refcfg = true

/-- R145's invariants of the data path. -/
def Hardware.DataPath (h : Hardware) : Prop :=
  (h.pend.data0 = true → h.serRun = true ∧ h.hold = none ∧ h.wslot = h.datatag + 1) ∧
  (∀ x, h.hold = some x → h.serRun = true ∧ h.pend.data0 = false ∧ h.wslot = x.slot + 1)

/-- A frame position other than 0 is one that a serial clock period has led to since the clock unit last started
(R13, R146, R148; log 22). -/
def Hardware.FrameBegun (h : Hardware) : Prop := h.t ≠ 0 → h.begun = true

/-- A word in the shift register of a running serializer is one that a slot start has loaded, so a serial clock period
has begun since the serializer started (R146, R149; log 22). -/
def Hardware.WordBegun (h : Hardware) : Prop := h.serRun = true → h.sh.any = false → h.serBegun = true

/-- The whole invariant of the hardware. -/
structure Hardware.Inv (p : Config.Params) (h : Hardware) : Prop where
  cgBusy : h.CgBusyExact
  dividers : h.DividersInRange
  tables : h.TablesInRange p
  eff : h.EffFollows
  config : h.ConfigQuiet
  reference : h.RunsReference
  data : h.DataPath
  frame : h.FrameBegun
  word : h.WordBegun

/-- While the shift register of a running serializer is `any`, so is the last data bit logged in this run of it
(R148, R150). -/
def State.BitsLoaded (s : State) : Prop :=
  s.hw.serRun = true → s.hw.serBegun = true → s.hw.sh.any = true → ∀ e, s.pinlog.getLast? = some e → e.sd.any = true

/-- The invariant of the state: the marks carry their codes (R31, R32), and in every fault-free state the hardware's
invariant holds and the log of the pins agrees with the shift register. -/
def State.Inv (s : State) : Prop :=
  (s.undef = true ↔ s.cause.isSome = true) ∧ (s.refused = true ↔ s.reason.isSome = true) ∧
  (s.undef = false → s.hw.Inv Config.params ∧ s.BitsLoaded)

/-! ### Runs (R6, R7), fairness (R85, R87, R140) and hangs (R209) -/

/-- A run that never stops: every state is the step of the one before. -/
def IsRun (σ : Nat → State) : Prop := ∀ n, step (σ n) = .next (σ (n + 1))

/-- CGSYNC's fairness: once enabled, the step happens after a finite number of steps (R85). -/
def FairCgSync (σ : Nat → State) : Prop :=
  ∀ n, (σ n).enabled Config.params .cgSync = true → ∃ m, n ≤ m ∧ (σ m).turn = .cgSync

/-- SYNC's fairness: while `asc_clk_on` stays true every pending item is completed (R140). -/
def FairSync (σ : Nat → State) : Prop :=
  ∀ n i, (∀ m, n ≤ m → (σ m).hw.ascClkOn Config.params = true) →
    ∃ m, n ≤ m ∧ (σ m).hw.pend.has i = false

/-- SRCTICK's fairness: every source oscillator ticks infinitely often (R87). -/
def FairSrcTick (σ : Nat → State) : Prop :=
  ∀ n (src : BitVec 4), src.toNat < Config.params.nSrc → ∃ m, n ≤ m ∧ (σ m).turn = .srcTick src

/-- The HOST keeps taking its turns, so that a wait that does not end is the hardware's doing. -/
def FairHost (σ : Nat → State) : Prop := ∀ n, ∃ m, n ≤ m ∧ (σ m).turn = .host

/-- An operation that waits: POLL and the loop of `write` (R209). -/
def HostOp.waits : HostOp → Bool
  | .issue _ => false
  | .poll _ _ _ => true
  | .awaitReady => true
  | .awaitReadyBusy _ => true

/-- STUCK: from some step on the HOST spins in a wait that no agent's step ever satisfies, although it keeps taking
its turns (R7, R209). `rest` is what would come after the wait. -/
def Stuck (σ : Nat → State) : Prop :=
  FairHost σ ∧ ∃ n rest, ∀ m, n ≤ m → ∃ op, op.waits = true ∧ (σ m).host = op :: rest

end Sys2Proof.Machine
end

