-- ==== Sys2Proof/Certificates/Slice0/Obligations.lean ====
section
/-! DEFINITION. The statements for the provers, from the spec's numbered rules. Each docstring names the rules it
formalises. A statement about a transaction writes out the whole next state, so it is the completion statement, the
result and the frame in one. -/

open Sys2Proof Sys2Proof.Machine

/-! ### Encoding (spec/30_encoding.md R56, R58, R59; spec/20_memory.md R40, R42; spec/40_bus_access.md R70, R71) -/

/-- R58: the 15 selectors and the transactions they name, for every data word; no other selector names one. -/
def Obligations.SelectorTableDecodes : Prop :=
  (∀ w : Word,
    decode ⟨0x000, 4, w⟩ = .ok .rdCtrla ∧ decode ⟨0x100, 4, w⟩ = .ok (.wrCtrla w) ∧
    decode ⟨0x004, 4, w⟩ = .ok .rdClkctrl0 ∧ decode ⟨0x104, 4, w⟩ = .ok (.wrClkctrl0 w) ∧
    decode ⟨0x014, 4, w⟩ = .ok .rdIntflag ∧ decode ⟨0x114, 4, w⟩ = .ok (.wrIntflag w) ∧
    decode ⟨0x018, 4, w⟩ = .ok .rdSyncbusy ∧ decode ⟨0x020, 4, w⟩ = .ok .rdSerctrl0 ∧
    decode ⟨0x120, 4, w⟩ = .ok (.wrSerctrl0 w) ∧ decode ⟨0x130, 4, w⟩ = .ok (.wrData0 w) ∧
    decode ⟨0x200, 4, w⟩ = .ok .rdCgstatus ∧ decode ⟨0x204, 4, w⟩ = .ok .rdGencfg ∧
    decode ⟨0x304, 4, w⟩ = .ok (.wrGencfg w) ∧ decode ⟨0x208, 4, w⟩ = .ok .rdClkroute ∧
    decode ⟨0x308, 4, w⟩ = .ok (.wrClkroute w)) ∧
  ∀ r : Request, r.sel ∉ ([0x000, 0x100, 0x004, 0x104, 0x014, 0x114, 0x018, 0x020, 0x120, 0x130, 0x200, 0x204,
    0x304, 0x208, 0x308] : List (BitVec 10)) → ∃ x, decode r = .error x

/-- A few words written out bit by bit (R56: BLK, DIR, OFF from bit 9 down) decode to what they stand for, through
the opcode table's numbering (log 13). -/
def Obligations.WordsDecodeAsWritten : Prop :=
  decodeTableWord 16 0b0000000000 = some .rdCtrla ∧
  decodeTableWord 48 (0b0100000000 + 0x16 * 0x10000) = some (.wrCtrla 0x16) ∧
  decodeTableWord 48 (0b0100110000 + 0x640000 * 0x10000) = some (.wrData0 0x640000) ∧
  decodeTableWord 48 (0b1100000100 + 0x110101 * 0x10000) = some (.wrGencfg 0x110101) ∧
  decodeTableWord 48 (0b1100001000 + 0x4103 * 0x10000) = some (.wrClkroute 0x4103) ∧
  decodeTableWord 16 0b0000011000 = some .rdSyncbusy ∧
  decodeTableWord 16 0b0000110000 = none ∧ decodeTableWord 16 0b0100011000 = none

/-- R59 cases X1 to X4, in the order of R70: a wrong size or a misaligned address first, then an unmapped offset,
then a write of a read-only register, then a read of the write-only one. -/
def Obligations.IllegalSelectorsRejected : Prop :=
  (∀ r : Request, r.size ≠ 4 ∨ r.sel.toNat % 4 ≠ 0 → decode r = .error .x1) ∧
  (∀ (sel : BitVec 10) (w : Word), sel.toNat % 4 = 0 →
    (sel.getLsbD 9 = false → sel.toNat % 256 ∉ [0x00, 0x04, 0x14, 0x18, 0x20, 0x30]) →
    (sel.getLsbD 9 = true → sel.toNat % 256 ∉ [0x00, 0x04, 0x08]) → decode ⟨sel, 4, w⟩ = .error .x2) ∧
  ∀ w : Word, decode ⟨0x118, 4, w⟩ = .error .x3 ∧ decode ⟨0x300, 4, w⟩ = .error .x3 ∧
    decode ⟨0x030, 4, w⟩ = .error .x4

/-- Decoding and encoding agree (R56, R58): every transaction, with every data word, is read back from its encoding,
and a request names a transaction only if its size, its selector and, for a write, its data word are those of the
encoding. -/
def Obligations.DecodeInvertsEncode : Prop :=
  (∀ i : Instr, decode (encode i) = .ok i) ∧
  ∀ (i : Instr) (r : Request), decode r = .ok i ↔
    r.size = 4 ∧ r.sel = (encode i).sel ∧ ∀ w, i.wdata? = some w → r.wdata = w

/-- R70's reserved masks are the complements of the fields of R15, R17, R18, R19, R26 and R27; every bit of DATA0 is
data (R24). -/
def Obligations.WellFormedMeansFieldsOnly : Prop :=
  ∀ w : Word,
    ((Instr.wrCtrla w).wellFormed = true ↔ ∀ n, w.getLsbD n = true → n ∈ [1, 2, 4]) ∧
    ((Instr.wrClkctrl0 w).wellFormed = true ↔ ∀ n, w.getLsbD n = true → n ∈ [16, 12, 8, 7, 4, 3, 2, 1, 0]) ∧
    ((Instr.wrSerctrl0 w).wellFormed = true ↔
      ∀ n, w.getLsbD n = true → n ∈ [25, 24, 15, 14, 13, 12, 10, 9, 8, 7, 5, 1, 0]) ∧
    ((Instr.wrIntflag w).wellFormed = true ↔ ∀ n, w.getLsbD n = true → n ∈ [8, 12]) ∧
    ((Instr.wrData0 w).wellFormed = true) ∧
    ((Instr.wrGencfg w).wellFormed = true ↔ ∀ n, w.getLsbD n = true → n ≤ 8 ∨ 16 ≤ n) ∧
    ((Instr.wrClkroute w).wellFormed = true ↔ ∀ n, w.getLsbD n = true → n ≤ 5 ∨ (8 ≤ n ∧ n ≤ 11) ∨ n = 14)

/-- R40 and R71: with parameters in R4's ranges, `base + offset` of a register is its selector, and an address
outside both blocks is no transaction. -/
def Obligations.AddressMapSelectsRegisters : Prop :=
  ∀ p : Config.Params, p.Valid → ∀ d : Dir,
    (∀ r : Reg, addressSel p ((if r.block = 0 then p.ascBase else p.cgBase) + r.offset.toNat) d =
      some (selector r d)) ∧
    (∀ addr, ¬(p.ascBase ≤ addr ∧ addr < p.ascBase + 0x100) → ¬(p.cgBase ≤ addr ∧ addr < p.cgBase + 0x100) →
      addressSel p addr d = none)

/-! ### Reset (spec/10_state.md R35; spec/70_reset_and_hazards.md R221) -/

/-- R221: after RESET every readable register reads 0, nothing is ready, the ASC has no clock, SYNC and SRCTICK do
nothing, the pins are `any`, and the driver-visible state is Uninitialized. -/
def Obligations.ResetReadsZero : Prop :=
  (∀ i : Instr, i.dir = .read → ∃ t, exec i State.reset = .next t ∧ t.result = 0) ∧
  State.reset.hw.txrdy0 = false ∧ State.reset.hw.ascClkOn Config.params = false ∧
  (∀ i, State.reset.enabled Config.params (.sync i) = false) ∧
  (∀ src, State.reset.agentTurn Config.params (.srcTick src) = State.reset) ∧
  State.reset.pins.fs.any = true ∧ State.reset.pins.sck.any = true ∧ State.reset.pins.sd.any = true ∧
  State.reset.driverState = some .uninitialized

/-- R35: the values the spec states for reset, field by field. (What R35 leaves `any`, `datareg` and `datatag`, is
left out: log 8.) -/
def Obligations.ResetState : Prop :=
  let h := State.reset.hw
  h.ctrla = ⟨false, false, false⟩ ∧ h.eff = ⟨false, false, false⟩ ∧ h.clkctrl0 = 0 ∧ h.serctrl0 = 0 ∧
  h.txur0 = false ∧ h.pend = ⟨false, false, false, false, false, false⟩ ∧ h.sh.any = true ∧ h.hold = none ∧
  h.wslot = 0 ∧ h.t = 0 ∧ h.cgbusy = false ∧ h.gencfg = 0 ∧ h.clkroute = 0 ∧ h.cgpend = .none ∧
  (∀ g : Fin 16, h.gen[g] = ⟨0, 1, false⟩) ∧ (∀ c : Fin 64, h.chan[c] = ⟨0, false⟩) ∧
  (∀ g : Fin 16, h.cnt[g] = 0) ∧ State.reset.undef = false ∧ State.reset.refused = false ∧
  State.reset.buslog = [] ∧ State.reset.txlog = [] ∧ State.reset.pinlog = []

/-- The invariant holds at reset. -/
def Obligations.ResetMeetsInvariant : Prop := State.reset.Inv

/-! ### A step runs the decoded transaction (R6, R70) -/

/-- In the HOST's turn, a request that decodes to a transaction is run by `exec`; around it `step` takes the turn
from the schedule, takes the operation from the program, and puts back what is left of it. -/
def Obligations.StepRunsHostTransaction : Prop :=
  ∀ (s : State) (op : HostOp) (rest : List HostOp) (i : Instr), s.turn = .host → s.host = op :: rest →
    decode op.request = .ok i → step s = resumeOut op (exec i { s.turnTaken with host := rest })

/-- A request that decoding rejects is refused with that reason; nothing else changes (R59, R70). -/
def Obligations.StepRefusesIllegalRequest : Prop :=
  ∀ (s : State) (r : Request) (rest : List HostOp) (x : Reason), s.Live → s.turn = .host →
    s.host = .issue r :: rest → decode r = .error x →
    step s = .next { s.turnTaken with host := rest, refused := true, reason := some x }

/-- The word placed by `withFetchWord` is the transaction the very next step runs, and the step adds nothing. -/
def Obligations.StepRunsFetchWord : Prop :=
  ∀ (s : State) (nbits w : Nat) (i : Instr), decodeTableWord nbits w = some i →
    step (s.withFetchWord nbits w) = exec i s

/-- POLL (R73): each turn makes one read of the register, whose image is the result and is logged; the program goes on
exactly when the masked image is the wanted value; nothing else changes. -/
def Obligations.PollRepeatsUntilWanted : Prop :=
  ∀ (s : State) (r : Reg) (mask want : Word) (rest : List HostOp), s.Live → s.turn = .host → r ≠ .data0 →
    s.host = pollOp r mask want :: rest →
    let image : Word := match r with
      | .ctrla => ctrlaImage s.hw
      | .clkctrl0 => s.hw.clkctrl0
      | .intflag => intflagImage s.hw
      | .syncbusy => syncbusyImage s.hw
      | .serctrl0 => s.hw.serctrl0
      | .data0 => 0
      | .cgstatus => cgstatusImage s.hw
      | .gencfg => s.hw.gencfg
      | .clkroute => s.hw.clkroute
    step s = .next { s.turnTaken with
      host := if image &&& mask = want then rest else s.host
      result := image, buslog := s.buslog ++ [⟨selector r .read, image⟩] }

/-! ### The reads (R80, R82, R84, R101, R103, R105, R106, R120) -/

/-- R101: RD.CTRLA returns the written value, even while the items are pending. -/
def Obligations.RdCtrlaReturnsWritten : Prop :=
  ∀ s : State, s.Live →
    let v : Word := (if s.hw.ctrla.seren0 then 0x10 else 0) ||| (if s.hw.ctrla.cken0 then 0x04 else 0)
      ||| (if s.hw.ctrla.enable then 0x02 else 0)
    exec .rdCtrla s = .next { s with buslog := s.buslog ++ [⟨0x000, v⟩], result := v }

/-- R103 and R105: RD.CLKCTRL0 and RD.SERCTRL0 return the written value, at once. -/
def Obligations.RdConfigReturnsWritten : Prop :=
  ∀ s : State, s.Live →
    exec .rdClkctrl0 s =
      .next { s with buslog := s.buslog ++ [⟨0x004, s.hw.clkctrl0⟩], result := s.hw.clkctrl0 } ∧
    exec .rdSerctrl0 s =
      .next { s with buslog := s.buslog ++ [⟨0x020, s.hw.serctrl0⟩], result := s.hw.serctrl0 }

/-- R82 and R84: RD.GENCFG and RD.CLKROUTE return the last value written, which CGSYNC does not change. -/
def Obligations.RdClockRegistersReturnWritten : Prop :=
  ∀ s : State, s.Live →
    exec .rdGencfg s = .next { s with buslog := s.buslog ++ [⟨0x204, s.hw.gencfg⟩], result := s.hw.gencfg } ∧
    exec .rdClkroute s =
      .next { s with buslog := s.buslog ++ [⟨0x208, s.hw.clkroute⟩], result := s.hw.clkroute } ∧
    (s.agentTurn Config.params .cgSync).hw.gencfg = s.hw.gencfg ∧
    (s.agentTurn Config.params .cgSync).hw.clkroute = s.hw.clkroute

/-- R80: RD.CGSTATUS returns 0x80 while the CG is busy and 0 otherwise; a CGSYNC step between two reads makes them
differ. -/
def Obligations.RdCgstatusReturnsBusy : Prop :=
  ∀ s : State, s.Live →
    (let v : Word := if s.hw.cgbusy then 0x80 else 0
     exec .rdCgstatus s = .next { s with buslog := s.buslog ++ [⟨0x200, v⟩], result := v }) ∧
    (s.hw.cgpend ≠ .none →
      ∃ t, exec .rdCgstatus (s.agentTurn Config.params .cgSync) = .next t ∧ t.result = 0)

/-- R106 and R22: RD.SYNCBUSY returns one bit per pending item, and 0 exactly when nothing is pending. -/
def Obligations.RdSyncbusyReturnsPending : Prop :=
  ∀ s : State, s.Live →
    ∃ v : Word, exec .rdSyncbusy s = .next { s with buslog := s.buslog ++ [⟨0x018, v⟩], result := v } ∧
      (∀ n, v.getLsbD n = true ↔
        (n = 1 ∧ s.hw.pend.enable = true) ∨ (n = 2 ∧ s.hw.pend.cken0 = true) ∨ (n = 4 ∧ s.hw.pend.seren0 = true) ∨
        (n = 8 ∧ s.hw.pend.data0 = true) ∨ (n = 10 ∧ s.hw.pend.clkctrl0 = true) ∨
        (n = 11 ∧ s.hw.pend.serctrl0 = true)) ∧
      (v = 0 ↔ ∀ i, s.hw.pend.has i = false)

/-- R120 and R20: RD.INTFLAG returns TXUR0 in bit 12 and TXRDY0 in bit 8, and clears neither. -/
def Obligations.RdIntflagReturnsFlags : Prop :=
  ∀ s : State, s.Live →
    let v : Word := (if s.hw.txur0 then 0x1000 else 0) |||
      (if s.hw.eff.enable = true ∧ s.hw.eff.seren0 = true ∧ s.hw.hold = none ∧ s.hw.pend.data0 = false
        then 0x100 else 0)
    exec .rdIntflag s = .next { s with buslog := s.buslog ++ [⟨0x014, v⟩], result := v }

/-! ### The writes (R81, R83, R100, R102, R104, R121, R122)

That a fault is a next state whose hardware is a free value, drawn by the counter `fresh`, is the model's form of R204
(logs 4, 6); that a refusal is a next state with its mark is the model's form of R32 (log 5). -/

/-- R100: while an enable or configuration item is pending WR.CTRLA is fault U2, whatever the word; else an enable bit
without the reference configuration is refused with X7 and no hardware changes (R107); else the three bits are stored,
any of the eight values (R108), and the three items raised; `eff` and all else stay. The model's own here: the forms
of fault and refusal (logs 4, 5, 6, 14, 15), and the six partial enables, which R108 infers (log 16). -/
def Obligations.WrCtrlaFollowsItsRule : Prop :=
  ∀ (s : State) (w : Word), s.Live → w &&& 0xFFFFFFE9 = 0 →
    let waiting := s.hw.pend.enable = true ∨ s.hw.pend.cken0 = true ∨ s.hw.pend.seren0 = true ∨
      s.hw.pend.clkctrl0 = true ∨ s.hw.pend.serctrl0 = true
    let admitted := w &&& 0x16 = 0 ∨ (s.hw.clkctrl0 = 0x87 ∧ s.hw.serctrl0 = 0x01)
    (waiting → ∃ h, exec (.wrCtrla w) s = .next { s with
      hw := h, undef := true, cause := some ⟨.u2, 0x100, w⟩, fresh := s.fresh + 1
      buslog := s.buslog ++ [⟨0x100, w⟩] }) ∧
    (¬waiting → ¬admitted → exec (.wrCtrla w) s = .next { s with
      refused := true, reason := some .x7, buslog := s.buslog ++ [⟨0x100, w⟩] }) ∧
    (¬waiting → admitted → exec (.wrCtrla w) s = .next { s with
      hw := { s.hw with
        ctrla := ⟨w.getLsbD 1, w.getLsbD 2, w.getLsbD 4⟩
        pend := { s.hw.pend with enable := true, cken0 := true, seren0 := true } }
      buslog := s.buslog ++ [⟨0x100, w⟩] })

/-- R102 and R104: where the ASC is not fully and effectively disabled WR.CLKCTRL0 and WR.SERCTRL0 are fault U3; else,
where the register's own item is pending, fault U4 (R203); else the word is stored, reserved codes included, and the
register's item raised. The other register's item and DATA0's do not matter. The form of a fault is the model's own
(logs 4, 6, 14, 15). -/
def Obligations.WrConfigFollowsItsRule : Prop :=
  ∀ (s : State) (w : Word), s.Live →
    let busy := s.hw.ctrla ≠ ⟨false, false, false⟩ ∨ s.hw.eff ≠ ⟨false, false, false⟩ ∨
      s.hw.pend.enable = true ∨ s.hw.pend.cken0 = true ∨ s.hw.pend.seren0 = true
    let faulted (u : Fault) (sel : BitVec 10) (t : State) := ∃ h, t = { s with
      hw := h, undef := true, cause := some ⟨u, sel, w⟩, fresh := s.fresh + 1, buslog := s.buslog ++ [⟨sel, w⟩] }
    (w &&& 0xFFFEEE60 = 0 →
      (busy → ∃ t, exec (.wrClkctrl0 w) s = .next t ∧ faulted .u3 0x104 t) ∧
      (¬busy → s.hw.pend.clkctrl0 = true → ∃ t, exec (.wrClkctrl0 w) s = .next t ∧ faulted .u4 0x104 t) ∧
      (¬busy → s.hw.pend.clkctrl0 = false → exec (.wrClkctrl0 w) s = .next { s with
        hw := { s.hw with clkctrl0 := w, pend := { s.hw.pend with clkctrl0 := true } }
        buslog := s.buslog ++ [⟨0x104, w⟩] })) ∧
    (w &&& 0xFCFF085C = 0 →
      (busy → ∃ t, exec (.wrSerctrl0 w) s = .next t ∧ faulted .u3 0x120 t) ∧
      (¬busy → s.hw.pend.serctrl0 = true → ∃ t, exec (.wrSerctrl0 w) s = .next t ∧ faulted .u4 0x120 t) ∧
      (¬busy → s.hw.pend.serctrl0 = false → exec (.wrSerctrl0 w) s = .next { s with
        hw := { s.hw with serctrl0 := w, pend := { s.hw.pend with serctrl0 := true } }
        buslog := s.buslog ++ [⟨0x120, w⟩] }))

/-- R121: WR.INTFLAG clears TXUR0 where bit 12 is 1 and does nothing else; it is allowed in every state. -/
def Obligations.WrIntflagClearsUnderrun : Prop :=
  ∀ (s : State) (w : Word), s.Live → w &&& 0xFFFFEEFF = 0 →
    exec (.wrIntflag w) s = .next { s with
      hw := { s.hw with txur0 := if w.getLsbD 12 then false else s.hw.txur0 }
      buslog := s.buslog ++ [⟨0x114, w⟩] }

/-- R122: where TXRDY0 reads 1, WR.DATA0 latches the word for the active slot, advances the active slot and raises
DATA0, and TXRDY0 then reads 0; otherwise it is fault U5. -/
def Obligations.WrData0AcceptsWhenReady : Prop :=
  ∀ (s : State) (w : Word), s.Live →
    let ready := s.hw.eff.enable = true ∧ s.hw.eff.seren0 = true ∧ s.hw.hold = none ∧ s.hw.pend.data0 = false
    (ready →
      let h : Hardware := { s.hw with
        datareg := w, datatag := s.hw.wslot, wslot := (if s.hw.wslot = 0 then 1 else 0)
        pend := { s.hw.pend with data0 := true } }
      exec (.wrData0 w) s = .next { s with hw := h, buslog := s.buslog ++ [⟨0x130, w⟩] } ∧ h.txrdy0 = false) ∧
    (¬ready → ∃ h, exec (.wrData0 w) s = .next { s with
      hw := h, undef := true, cause := some ⟨.u5, 0x130, w⟩, fresh := s.fresh + 1
      buslog := s.buslog ++ [⟨0x130, w⟩] })

/-- R81: WR.GENCFG while the CG is busy is fault U1, whatever else is wrong with it; else a field out of range is
refused with X6; else the generator feeding an active ASC is refused with X8 (R88); else the word is stored and becomes
the CG's pending write, and the tables stay. The forms of fault and refusal are the model's own (logs 4, 5, 6, 14,
15). -/
def Obligations.WrGencfgFollowsItsRule : Prop :=
  ∀ (s : State) (w : Word), s.Live → w &&& 0x0000FE00 = 0 →
    let bad := Config.params.nGen ≤ (w.extractLsb' 0 4).toNat ∨ Config.params.nSrc ≤ (w.extractLsb' 4 4).toNat ∨
      w.extractLsb' 16 16 = 0
    let touches := (s.hw.ctrla ≠ ⟨false, false, false⟩ ∨ s.hw.eff ≠ ⟨false, false, false⟩) ∧
      s.hw.chan[Config.params.ascCid.toFin].clken = true ∧
      s.hw.chan[Config.params.ascCid.toFin].gen = w.extractLsb' 0 4
    (s.hw.cgbusy = true → ∃ h, exec (.wrGencfg w) s = .next { s with
      hw := h, undef := true, cause := some ⟨.u1, 0x304, w⟩, fresh := s.fresh + 1
      buslog := s.buslog ++ [⟨0x304, w⟩] }) ∧
    (s.hw.cgbusy = false → bad → exec (.wrGencfg w) s = .next { s with
      refused := true, reason := some .x6, buslog := s.buslog ++ [⟨0x304, w⟩] }) ∧
    (s.hw.cgbusy = false → ¬bad → touches → exec (.wrGencfg w) s = .next { s with
      refused := true, reason := some .x8, buslog := s.buslog ++ [⟨0x304, w⟩] }) ∧
    (s.hw.cgbusy = false → ¬bad → ¬touches → exec (.wrGencfg w) s = .next { s with
      hw := { s.hw with gencfg := w, cgpend := .gen w, cgbusy := true }
      buslog := s.buslog ++ [⟨0x304, w⟩] })

/-- R83: WR.CLKROUTE while the CG is busy is fault U1; else a generator that does not exist is refused with X6; else
the route of an active ASC is refused with X8 (R88); else the word is stored and becomes the CG's pending write, and
the tables stay. The forms of fault and refusal are the model's own (logs 4, 5, 6, 14, 15). -/
def Obligations.WrClkrouteFollowsItsRule : Prop :=
  ∀ (s : State) (w : Word), s.Live → w &&& 0xFFFFB0C0 = 0 →
    let bad := Config.params.nGen ≤ (w.extractLsb' 8 4).toNat
    let touches := (s.hw.ctrla ≠ ⟨false, false, false⟩ ∨ s.hw.eff ≠ ⟨false, false, false⟩) ∧
      w.extractLsb' 0 6 = Config.params.ascCid
    (s.hw.cgbusy = true → ∃ h, exec (.wrClkroute w) s = .next { s with
      hw := h, undef := true, cause := some ⟨.u1, 0x308, w⟩, fresh := s.fresh + 1
      buslog := s.buslog ++ [⟨0x308, w⟩] }) ∧
    (s.hw.cgbusy = false → bad → exec (.wrClkroute w) s = .next { s with
      refused := true, reason := some .x6, buslog := s.buslog ++ [⟨0x308, w⟩] }) ∧
    (s.hw.cgbusy = false → ¬bad → touches → exec (.wrClkroute w) s = .next { s with
      refused := true, reason := some .x8, buslog := s.buslog ++ [⟨0x308, w⟩] }) ∧
    (s.hw.cgbusy = false → ¬bad → ¬touches → exec (.wrClkroute w) s = .next { s with
      hw := { s.hw with clkroute := w, cgpend := .route w, cgbusy := true }
      buslog := s.buslog ++ [⟨0x308, w⟩] })

/-! ### Refusals and faults over all transactions (R70, R200, R203 to R205)

The forms of a fault and of a refusal are the model's (logs 4, 5, 6), and so is the stop after a refusal (log 5) and the
record of the transaction with the code (log 15). -/

/-- R70: a 1 in a reserved bit is refused with X5 before the register's rule, in every state of the hardware; nothing
is logged and nothing else changes. -/
def Obligations.ReservedBitRefusedFirst : Prop :=
  ∀ (i : Instr) (s : State), s.Live → i.wellFormed = false →
    exec i s = .next { s with refused := true, reason := some .x5 }

/-- R70: once something was refused no rule applies to a transaction, so every one stops. -/
def Obligations.AfterRefusalNothingRuns : Prop :=
  ∀ (i : Instr) (s : State), s.refused = true → exec i s = .refused (.afterRefusal s.reason)

/-- R31 and R70: while `undef` is set every transaction still goes through, its result and the hardware being free
values; the marks, the logs and the inputs stay. -/
def Obligations.AfterFaultEveryTransactionPasses : Prop :=
  ∀ (i : Instr) (s : State), s.refused = false → s.undef = true →
    ∃ h v, exec i s = .next { s with hw := h, result := v, fresh := s.fresh + 1 }

/-- R200's table, both ways: a well-formed transaction faults exactly where the table says, with the code and the
transaction recorded; where it does not fault, no fault is recorded. -/
def Obligations.FaultsAreTheTable : Prop :=
  ∀ (i : Instr) (s : State), s.Live → i.wellFormed = true →
    ∃ t, exec i s = .next t ∧ t.undef = (faultOf i s.hw).isSome ∧
      ∀ u, faultOf i s.hw = some u → t.cause = some ⟨u, (encode i).sel, (encode i).wdata⟩

/-- R200: "no read and no agent step raises one": a step that sets `undef` is a HOST write that R200's table names. -/
def Obligations.OnlyHostWritesFault : Prop :=
  ∀ s t : State, step s = .next t → s.undef = false → t.undef = true →
    ∃ i u, s.nextInstr = some i ∧ i.dir = .write ∧ i.wellFormed = true ∧ faultOf i s.hw = some u ∧
      t.cause = some ⟨u, (encode i).sel, (encode i).wdata⟩

/-- R205 and R32: no step clears `undef` or changes its cause, and no step clears `refused`. That RESET, which clears
both, is no step is the model's reading of R220 (log 23). -/
def Obligations.MarksAreSticky : Prop :=
  ∀ s t : State, step s = .next t →
    (s.undef = true → t.undef = true ∧ t.cause = s.cause) ∧ (s.refused = true → t.refused = true)

/-! ### Rules of the whole machine -/

/-- R109: "No step of any agent other than WR.CLKCTRL0 and WR.SERCTRL0 (and RESET) writes `clkctrl0` or `serctrl0`",
in a run without a fault. -/
def Obligations.ConfigChangesOnlyByItsWrites : Prop :=
  ∀ s t : State, step s = .next t → t.undef = false →
    (t.hw.clkctrl0 = s.hw.clkctrl0 ∨
      ∃ w, s.nextInstr = some (.wrClkctrl0 w) ∧ w &&& 0xFFFEEE60 = 0 ∧ t.hw.clkctrl0 = w) ∧
    (t.hw.serctrl0 = s.hw.serctrl0 ∨
      ∃ w, s.nextInstr = some (.wrSerctrl0 w) ∧ w &&& 0xFCFF085C = 0 ∧ t.hw.serctrl0 = w)

/-- R43: a step in which the HOST reads changes no register, table or pending item. -/
def Obligations.ReadsHaveNoSideEffect : Prop :=
  ∀ (s t : State) (i : Instr), step s = .next t → s.undef = false → s.nextInstr = some i → i.dir = .read →
    t.hw = s.hw ∧ t.txlog = s.txlog ∧ t.pinlog = s.pinlog ∧ t.undef = false ∧ t.refused = false

/-- Every step keeps the invariant: R29 (`cgbusy` exactly with a pending CG write), R28 (divider phases), the tables'
ranges, R16 (an effective enable differs from its written value only while pending), R144 (no unit runs while a
configuration write is pending), R107 (enabled only under the reference configuration), R145 (the data path), R13 (a
frame position other than 0 only after a serial clock period: log 22), R149 (a word in the shift register only after a
serial clock period: log 22), R150 (while the shift register is `any`, so is the last data bit logged). -/
def Obligations.EveryStepKeepsInvariant : Prop :=
  ∀ s t : State, s.Inv → step s = .next t → t.Inv

/-- R124(c) and R149: a step adds to `txlog` only an underrun, or the word the holding register held for exactly that
slot, and then the holding register is empty; so a word is sent at most once and never in the wrong slot. At most one
slot starts in a step. -/
def Obligations.WordsGoOutInTheirSlot : Prop :=
  ∀ s t : State, step s = .next t →
    t.txlog = s.txlog ∨ (∃ slot, t.txlog = s.txlog ++ [.underrun slot] ∧ t.hw.txur0 = true) ∨
    ∃ slot word, s.hw.hold = some ⟨word, slot⟩ ∧ t.txlog = s.txlog ++ [.loaded slot word] ∧ t.hw.hold = none

/-- R174 (from R20): once TXRDY0 reads 1 with no enable change pending, no step of an agent lowers it; "only a HOST
write can lower it". -/
def Obligations.ReadyStaysUntilHostWrites : Prop :=
  ∀ s t : State, step s = .next t → s.turn ≠ .host → s.undef = false → s.hw.pend.anyEnsync = false →
    s.hw.txrdy0 = true → t.hw.txrdy0 = true ∧ t.undef = false

/-! ### CGSYNC and SYNC (R85, R140 to R146) -/

/-- R85: CGSYNC writes the one table entry the pending write names, restarts that generator's divider, and ends the
busy state; every other entry stays. -/
def Obligations.CgSyncAppliesPendingWrite : Prop :=
  ∀ (s : State) (v : Word), s.turn = .cgSync → s.undef = false →
    (s.hw.cgpend = .gen v → ∃ gen cnt,
      step s = .next { s.turnTaken with
        hw := { s.hw with gen := gen, cnt := cnt, cgpend := .none, cgbusy := false } } ∧
      (∀ g : Fin 16, gen[g] = if g.val = (v.extractLsb' 0 4).toNat then
        ⟨v.extractLsb' 4 4, v.extractLsb' 16 16, v.getLsbD 8⟩ else s.hw.gen[g]) ∧
      ∀ g : Fin 16, cnt[g] = if g.val = (v.extractLsb' 0 4).toNat then 0 else s.hw.cnt[g]) ∧
    (s.hw.cgpend = .route v → ∃ chan,
      step s = .next { s.turnTaken with hw := { s.hw with chan := chan, cgpend := .none, cgbusy := false } } ∧
      ∀ c : Fin 64, chan[c] = if c.val = (v.extractLsb' 0 6).toNat then
        ⟨v.extractLsb' 8 4, v.getLsbD 14⟩ else s.hw.chan[c])

/-- R140 and R85: an agent without a step changes nothing: SYNC of an item that is not pending, or with the ASC's
clock off; CGSYNC with no pending write. -/
def Obligations.AgentsWaitUntilEnabled : Prop :=
  ∀ s : State, s.undef = false →
    (∀ i, s.turn = .sync i → (s.hw.pend.has i = false ∨ s.hw.ascClkOn Config.params = false) →
      step s = .next s.turnTaken) ∧
    (s.turn = .cgSync → s.hw.cgpend = .none → step s = .next s.turnTaken)

/-- R141 to R143 and R146: SYNC of an enable item makes that bit effective and removes the item; where the clock unit
starts the frame restarts; where the serializer starts or stops the data path is emptied, where it starts the write
slot is 0, and where it stops a pending DATA0 item is dropped. The model's own here: the word `w` that stands for `any`,
drawn by the counter `fresh` (log 7), and the fields `begun` and `serBegun` (log 22). -/
def Obligations.SyncEnableTakesEffect : Prop :=
  ∀ (s : State) (i : Item) (eff : Enables), s.turn = .sync i → s.undef = false → s.hw.pend.has i = true →
    s.hw.ascClkOn Config.params = true →
    ((i = .enable ∧ eff = { s.hw.eff with enable := s.hw.ctrla.enable }) ∨
      (i = .cken0 ∧ eff = { s.hw.eff with cken0 := s.hw.ctrla.cken0 }) ∨
      (i = .seren0 ∧ eff = { s.hw.eff with seren0 := s.hw.ctrla.seren0 })) →
    let clk := eff.enable && eff.cken0
    let ser := eff.enable && eff.seren0
    ∃ w : Word, step s = .next { s.turnTaken with fresh := s.turnTaken.fresh + 1, hw := { s.hw with
      eff := eff
      t := if clk = true ∧ s.hw.clkRun = false then 0 else s.hw.t
      begun := if clk = true ∧ s.hw.clkRun = false then false else s.hw.begun
      wslot := if ser = true ∧ s.hw.serRun = false then 0 else s.hw.wslot
      hold := if ser = s.hw.serRun then s.hw.hold else none
      sh := if ser = s.hw.serRun then s.hw.sh else ⟨w, true⟩
      serBegun := if ser = true ∧ s.hw.serRun = false then false else s.hw.serBegun
      pend := if ser = false ∧ s.hw.serRun = true then (s.hw.pend.drop i).drop .data0 else s.hw.pend.drop i } }

/-- R144 and R145: SYNC of a configuration item only removes it; SYNC(DATA0) moves the word with its tag into the
holding register. (The counter `fresh`: log 7.) -/
def Obligations.SyncDataAndConfigTakeEffect : Prop :=
  ∀ s : State, s.undef = false → s.hw.ascClkOn Config.params = true →
    (s.turn = .sync .clkctrl0 → s.hw.pend.clkctrl0 = true →
      step s = .next { s.turnTaken with
        fresh := s.turnTaken.fresh + 1, hw := { s.hw with pend := { s.hw.pend with clkctrl0 := false } } }) ∧
    (s.turn = .sync .serctrl0 → s.hw.pend.serctrl0 = true →
      step s = .next { s.turnTaken with
        fresh := s.turnTaken.fresh + 1, hw := { s.hw with pend := { s.hw.pend with serctrl0 := false } } }) ∧
    (s.turn = .sync .data0 → s.hw.pend.data0 = true →
      step s = .next { s.turnTaken with fresh := s.turnTaken.fresh + 1, hw := { s.hw with
        hold := some ⟨s.hw.datareg, s.hw.datatag⟩, pend := { s.hw.pend with data0 := false } } })

/-! ### The divider, the frame and the serializer (R86, R87, R147 to R152) -/

/-- R87: in SRCTICK(s)'s turn, with no fault and `s < N_SRC`, the step is one tick of that source. -/
def Obligations.SourceTurnIsOneTick : Prop :=
  ∀ (s : State) (src : BitVec 4), s.turn = .srcTick src → s.undef = false → src.toNat < Config.params.nSrc →
    step s = .next (s.turnTaken.srcTick Config.params src)

/-- R87 and R147: a source tick advances the phase of exactly the enabled generators fed by that source, from `DIV - 1`
back to 0. Where it wraps the phase of the generator that feeds the ASC, while `clk_run` holds, exactly one serial clock
period begins; otherwise none does; and nothing else happens. For every value of the parameters. -/
def Obligations.SourceTickAdvancesDividers : Prop :=
  ∀ (p : Config.Params) (src : BitVec 4) (s : State),
    (∀ g : Fin 16, (s.srcTick p src).hw.cnt[g] =
      if g.val < p.nGen ∧ s.hw.gen[g].genen = true ∧ s.hw.gen[g].src = src then
        (if s.hw.cnt[g] + 1 = s.hw.gen[g].div.toNat then 0 else s.hw.cnt[g] + 1)
      else s.hw.cnt[g]) ∧
    let g := (s.hw.ascChan p).gen.toFin
    let reaches := s.hw.clkRun = true ∧ (s.hw.ascChan p).clken = true ∧ g.val < p.nGen ∧
      s.hw.gen[g].genen = true ∧ s.hw.gen[g].src = src ∧ s.hw.cnt[g] + 1 = s.hw.gen[g].div.toNat
    ∃ cnt,
      (reaches → s.srcTick p src = { s.sckTick p with hw := { (s.sckTick p).hw with cnt := cnt } }) ∧
      (¬reaches → s.srcTick p src = { s with hw := { s.hw with cnt := cnt } })

/-- R86, R87 and R90, the frequency law: while the clock unit runs from generator `g`, `k` ticks of its source make
exactly `(cnt + k) / DIV` serial clock periods, one after the other and nothing else, leave the phase at the remainder,
and move the frame position by that many periods modulo 64. -/
def Obligations.TicksMakeSerialPeriods : Prop :=
  ∀ (p : Config.Params) (src : BitVec 4) (s : State) (g : Fin 16) (k : Nat),
    s.hw.clkRun = true → (s.hw.ascChan p).clken = true → (s.hw.ascChan p).gen.toNat = g.val → g.val < p.nGen →
    s.hw.gen[g].genen = true → s.hw.gen[g].src = src → s.hw.cnt[g] < s.hw.gen[g].div.toNat →
    let n := (s.hw.cnt[g] + k) / s.hw.gen[g].div.toNat
    let u := (State.srcTick p src)^[k] s
    let v := (State.sckTick p)^[n] s
    (∃ cnt, u = { v with hw := { v.hw with cnt := cnt } }) ∧
    u.pinlog.length = s.pinlog.length + n ∧ u.hw.cnt[g] = (s.hw.cnt[g] + k) % s.hw.gen[g].div.toNat ∧
    u.hw.t.val = (s.hw.t.val + n) % 64

/-- R148 and R149: slots start only at `t = 1` (left) and `t = 33` (right), and only while the serializer runs: the
held word of that slot is loaded and the holding register emptied, or the slot underruns and the holding register
stays. The model's own here: the word `w` that stands for `any` (log 7), and the fields `begun` and `serBegun`
(log 22). -/
def Obligations.SlotStartsLoadOrUnderrun : Prop :=
  ∀ (p : Config.Params) (s : State),
    let u := s.sckTick p
    (s.hw.serRun = false ∨ (s.hw.t ≠ 1 ∧ s.hw.t ≠ 33) →
      u.txlog = s.txlog ∧ u.hw = { s.hw with t := s.hw.t + 1, begun := true, serBegun := true }) ∧
    (∀ slot : Slot, s.hw.serRun = true → (s.hw.t = 1 ∧ slot = 0) ∨ (s.hw.t = 33 ∧ slot = 1) →
      (∀ w, s.hw.hold = some ⟨w, slot⟩ →
        u.txlog = s.txlog ++ [.loaded slot w] ∧
        u.hw = { s.hw with sh := ⟨w, false⟩, hold := none, t := s.hw.t + 1, begun := true, serBegun := true }) ∧
      ((∀ w, s.hw.hold ≠ some ⟨w, slot⟩) →
        u.txlog = s.txlog ++ [.underrun slot] ∧
        ∃ w, u.hw = { s.hw with
          txur0 := true, sh := ⟨w, true⟩, t := s.hw.t + 1, begun := true, serBegun := true }))

/-- R148, R150, R151 and R152: the period `t` puts on FS the slot-0 level for `t` below 32 and the other level from 32
on, and on SD bit 0 of the word at `t = 0`, bit `32 - t` for `t` from 1 to 32 and bit `64 - t` from 33 to 63; `any` where
the serializer does not run, where the shift register is `any`, and in the very first period after the clock unit starts
(told by the model's own field `begun`: log 22). -/
def Obligations.FrameIsTheTable : Prop :=
  ∀ (p : Config.Params) (s : State),
    let u := s.sckTick p
    let bit := if s.hw.t.val = 0 then 0 else if s.hw.t.val ≤ 32 then 32 - s.hw.t.val else 64 - s.hw.t.val
    ∃ fs sd, u.pinlog = s.pinlog ++ [⟨fs, sd⟩] ∧
      fs = (if s.hw.t.val < 32 then p.fsSlot0Level else !p.fsSlot0Level) ∧
      (sd.any = true ↔ s.hw.serRun = false ∨ u.hw.sh.any = true ∨ (s.hw.t = 0 ∧ s.hw.begun = false)) ∧
      (sd.any = false → sd.value = u.hw.sh.value.getLsbD bit)

/-- R34 and R31: in the period that a SCKTICK began, while the clock unit runs, FS has the value it appended to `pinlog`
and SCK makes one cycle, and SD has the value it appended while the serializer runs. FS and SCK are `any` while the clock
unit is off, SD is `any` while the serializer is off, and every pin is `any` after a fault. I10: SD is `any` while the
clock unit is off too, since a unit is not running and a word on the pin is cut short. D29 and I22: SD is `any` in every
bit not yet loaded, so from a start of the serializer to the next SCKTICK, and, in a state of the invariant, wherever the
shift register is `any`. The model's own: the fields `begun` and `serBegun`, and the reading that between a start of the
clock unit and its first SCKTICK all three pins are `any` (log 22). -/
def Obligations.PinsCarryTheRunningPeriod : Prop :=
  ∀ s : State,
    (s.undef = true ∨ s.hw.clkRun = false ∨ s.hw.begun = false →
      s.pins.fs.any = true ∧ s.pins.sck.any = true ∧ s.pins.sd.any = true) ∧
    (s.hw.serRun = false ∨ s.hw.serBegun = false → s.pins.sd.any = true) ∧
    (s.Inv → s.hw.sh.any = true → s.pins.sd.any = true) ∧
    (∀ e, s.undef = false → s.hw.clkRun = true → s.hw.begun = true → s.pinlog.getLast? = some e →
      s.pins.fs = ⟨e.fs, false⟩ ∧ s.pins.sck = ⟨1, false⟩ ∧
      (s.hw.serRun = true → s.hw.serBegun = true → s.pins.sd = e.sd)) ∧
    (∀ p, s.undef = false → s.hw.clkRun = true → (s.sckTick p).pins.fs =
      ⟨if s.hw.t.val < 32 then p.fsSlot0Level else !p.fsSlot0Level, false⟩)

/-! ### The driver's operations and the hangs (R170 to R174, R209) -/

/-- R209, P6: with the ASC's clock off and no CG write pending, a POLL of SYNCBUSY for 0 while something is pending
never ends: after any number of steps the HOST is still at it, and the same items are pending. -/
def Obligations.PollHangsWithoutClock : Prop :=
  ∀ (s u : State) (rest : List HostOp) (k : Nat), s.Live → s.hw.cgpend = .none →
    s.hw.ascClkOn Config.params = false → (∃ i, s.hw.pend.has i = true) → s.host = pollSync :: rest →
    core.run k s = .next u → u.host = pollSync :: rest ∧ u.hw.pend = s.hw.pend ∧ u.Live

/-- R209, R174: called where nothing is enabled and no enable item is pending, the loop of `write` never ends: after
any number of steps the HOST is still in it, and no fault has been raised. -/
def Obligations.WriteHangsWhileDisabled : Prop :=
  ∀ (s u : State) (rest : List HostOp) (k : Nat), s.Live → s.hw.pend.anyEnsync = false → s.hw.eff.any = false →
    s.host = .awaitReady :: rest → core.run k s = .next u →
    u.Live ∧ (u.host = .awaitReady :: rest ∨ ∃ f, u.host = .awaitReadyBusy f :: rest)

/-- R170: `configure` of a generator and source that exist, while the ASC is not active, ends with the generator's
entry, the ASC's route and the clock on, when CGSYNC follows each write. -/
def Obligations.ConfigureClocksTheAsc : Prop :=
  ∀ (s : State) (id src : BitVec 4) (div : BitVec 16) (rest : List HostOp) (later : List Turn), s.Live →
    s.hw.cgbusy = false → s.hw.ascActive = false → id.toNat < Config.params.nGen →
    src.toNat < Config.params.nSrc → div ≠ 0 →
    s.host = driverConfigure Config.params id div src true ++ rest →
    s.schedule = [.host, .host, .cgSync, .host, .host, .cgSync, .host] ++ later →
    ∃ u, core.run 7 s = .next u ∧ u.Live ∧ u.host = rest ∧ u.schedule = later ∧ u.hw.cgbusy = false ∧
      u.hw.gen[id.toFin] = ⟨src, div, true⟩ ∧ u.hw.chan[Config.params.ascCid.toFin] = ⟨id, true⟩ ∧
      u.hw.ascClkOn Config.params = true

/-- R171: `init` with the ASC's clock on and no enable or configuration item pending ends in Configured, from every
driver-visible state and whatever the order in which the items complete; a stream that was running is stopped. -/
def Obligations.InitReachesConfiguredInAnyOrder : Prop :=
  ∀ (s : State) (a b c d e : Item) (rest : List HostOp) (later : List Turn), s.Live → s.Inv → s.hw.quiet = true →
    s.hw.ascClkOn Config.params = true → [a, b, c].Perm [.enable, .cken0, .seren0] →
    [d, e].Perm [.clkctrl0, .serctrl0] → s.host = driverInit ++ rest →
    s.schedule = [.host, .sync a, .sync b, .sync c, .host, .host, .host, .sync d, .sync e, .host] ++ later →
    ∃ u, core.run 10 s = .next u ∧ u.driverState = some .configuredOrDisabled ∧ u.host = rest ∧
      u.schedule = later ∧ u.hw.pend = ⟨false, false, false, false, false, false⟩ ∧ u.hw.hold = none ∧
      u.hw.clkctrl0 = 0x87 ∧ u.hw.serctrl0 = 0x01

/-- R172: `enable` from Configured ends in Enabled, whatever the order in which the three items complete: the enables
effective, nothing pending, the write slot 0, the holding register empty, TXRDY0 1, the configuration as it was. -/
def Obligations.EnableReachesEnabledInAnyOrder : Prop :=
  ∀ (s : State) (a b c : Item) (rest : List HostOp) (later : List Turn), s.Live → s.Inv →
    s.driverState = some .configuredOrDisabled → s.hw.ascClkOn Config.params = true →
    [a, b, c].Perm [.enable, .cken0, .seren0] → s.host = driverEnable ++ rest →
    s.schedule = [.host, .sync a, .sync b, .sync c, .host] ++ later →
    ∃ u, core.run 5 s = .next u ∧ u.driverState = some .enabled ∧ u.host = rest ∧ u.schedule = later ∧
      u.hw.wslot = 0 ∧ u.hw.hold = none ∧ u.hw.txrdy0 = true ∧
      u.hw.clkctrl0 = s.hw.clkctrl0 ∧ u.hw.serctrl0 = s.hw.serctrl0

/-- R173 and P7: `disable` from Enabled, with or without a word still synchronising, ends in Disabled, whatever the
order in which the items complete: the word is dropped, the configuration stays. -/
def Obligations.DisableDropsTheWordInAnyOrder : Prop :=
  ∀ (s : State) (a b c : Item) (rest : List HostOp) (later : List Turn), s.Live → s.Inv →
    s.driverState = some .enabled → s.hw.ascClkOn Config.params = true →
    [a, b, c].Perm [.enable, .cken0, .seren0] → s.host = driverDisable ++ rest →
    s.schedule = [.host, .sync a, .sync b, .sync c, .host] ++ later →
    ∃ u, core.run 5 s = .next u ∧ u.driverState = some .configuredOrDisabled ∧ u.host = rest ∧
      u.schedule = later ∧ u.hw.hold = none ∧ u.hw.pend.data0 = false ∧ u.txlog = s.txlog ∧
      u.hw.clkctrl0 = s.hw.clkctrl0 ∧ u.hw.serctrl0 = s.hw.serctrl0

/-- R174: with no enable change pending, one word of `write` never faults, in every interleaving: after any number of
steps either the word has been accepted on the way, with nothing wrong, or the HOST is still at it and nothing is
wrong. -/
def Obligations.WriteNeverFaults : Prop :=
  ∀ (s u : State) (v : Word) (rest : List HostOp) (k : Nat), s.Live → s.hw.pend.anyEnsync = false →
    s.host = writeWord v ++ rest → core.run k s = .next u →
    (∃ j m, j ≤ k ∧ core.run j s = .next m ∧ m.Live ∧ m.host = rest ∧ m.hw.datareg = v ∧ m.hw.pend.data0 = true) ∨
    (u.Live ∧ (u.host = writeWord v ++ rest ∨
      (∃ f, u.host = .awaitReadyBusy f :: wrOp .intflag txur0Mask :: wrOp .data0 v :: rest) ∨
      u.host = wrOp .intflag txur0Mask :: wrOp .data0 v :: rest ∨ u.host = wrOp .data0 v :: rest))

/-! ### The software around the driver (R178, R179) -/

/-- R178, T4: a 44-byte header followed by samples, low byte first, decodes to exactly those samples. -/
def Obligations.DecodedSamplesAreTheOriginals : Prop :=
  ∀ (header : List Byte) (xs : List (BitVec 16)), header.length = 44 →
    decodeSamples (header ++ xs.flatMap fun x => [x.extractLsb' 0 8, x.extractLsb' 8 8]) = some xs

/-- R178, R201: starting playback on a buffer shorter than the header or with an odd rest is refused with X9. -/
def Obligations.MalformedBufferRefused : Prop :=
  ∀ (s : State) (buf : List Byte) (trigger : Option (List Bool)), buf.length < 44 ∨ (buf.length - 44) % 2 = 1 →
    s.startPlayback buf trigger = { s with refused := true, reason := some .x9 }

/-- R179: the widened word is the sample modulo 65536, shifted left by 16; read as signed it is 65536 times the
sample. -/
def Obligations.WideningKeepsTheSign : Prop :=
  ∀ x : BitVec 16, ((widen x).toNat : Int) = (sampleValue x % 65536) * 65536 ∧
    (widen x).toInt = sampleValue x * 65536

/-- R180: in the HOST's turn with its program run out, the playback loop makes its next pass. With no trigger, or an
active one, the next sample, widened, is given to `write` for both channels, the sequence restarting when it ends; with
an inactive trigger nothing is pulled and nothing called. (The trigger as an input: log 21.) -/
def Obligations.PlaybackPassWritesTheNextSample : Prop :=
  ∀ (s : State) (x : Player) (v : BitVec 16), s.turn = .host → s.host = [] → s.player = some x →
    x.samples[x.pulled % x.samples.length]? = some v →
    (∀ later, x.trigger = none ∧ later = none ∨ (∃ bs, x.trigger = some (true :: bs) ∧ later = some bs) →
      step s = .next { s.turnTaken with
        host := driverWrite (v ++ (0 : BitVec 16)) (v ++ (0 : BitVec 16))
        player := some ⟨x.samples, x.pulled + 1, later⟩, fresh := s.turnTaken.fresh + 1 }) ∧
    (∀ bs, x.trigger = some (false :: bs) →
      step s = .next { s.turnTaken with
        player := some ⟨x.samples, x.pulled, some bs⟩, fresh := s.turnTaken.fresh + 1 })

/-- R180, "For ever": no step of any agent ends the playback loop or changes its samples, and only a pass, in the HOST's
turn with its program run out, pulls a sample, one at most. -/
def Obligations.PlaybackNeverEnds : Prop :=
  ∀ (s t : State) (x : Player), step s = .next t → s.player = some x →
    ∃ y, t.player = some y ∧ y.samples = x.samples ∧ (y.trigger = none ↔ x.trigger = none) ∧
      (y = x ∨ (s.turn = .host ∧ s.host = [] ∧ (y.pulled = x.pulled ∨ y.pulled = x.pulled + 1)))

/-! ### The reference configuration (R5, R62) -/

/-- R62: the values of the reference configuration's constants, GENCFG_REF and CLKROUTE_REF for every generator and
source. -/
def Obligations.ReferenceConstants : Prop :=
  ctrlaAll = 0x00000016 ∧ ctrlaNone = 0x00000000 ∧ clkctrl0Ref = 0x00000087 ∧ serctrl0Ref = 0x00000001 ∧
  txur0Mask = 0x00001000 ∧ txrdy0Mask = 0x00000100 ∧ data0Busy = 0x00000100 ∧ syncbusyAll = 0x00000D16 ∧
  cgBusyMask = 0x00000080 ∧
  (∀ g s : BitVec 4, (gencfgRef g s).toNat = 17 * 2 ^ 16 + 2 ^ 8 + s.toNat * 2 ^ 4 + g.toNat) ∧
  ∀ (p : Config.Params) (g : BitVec 4),
    (clkrouteRef p g).toNat = 2 ^ 14 + g.toNat * 2 ^ 8 + p.ascCid.toNat

/-- R5, R86 and R177: `configure` as the bring-up of the reference configuration makes it, followed by CGSYNC after each
write, leaves the ASC with the reference clock, whose frequency is 48,000,000 / 17 Hz. (That one of the sources is the
reference oscillator: log 10.) -/
def Obligations.ReferenceBringUpClocksTheAsc : Prop :=
  ∀ (s : State) (g : BitVec 4) (later : List Turn), s.Live → s.hw.cgbusy = false → s.hw.ascActive = false →
    g.toNat < Config.params.nGen → s.host = bringUpRef Config.params g →
    s.schedule = [.host, .host, .cgSync, .host, .host, .cgSync, .host] ++ later →
    ∃ u, core.run 7 s = .next u ∧ u.Live ∧ u.host = driverInit ++ driverEnable ∧ u.schedule = later ∧
      u.hw.gencfg = gencfgRef g Config.referenceSource ∧ u.hw.clkroute = clkrouteRef Config.params g ∧
      u.hw.refClock Config.params = true ∧
      outputHz (Config.sourceHz Config.referenceSource.toNat) u.hw.gen[g.toFin] = some (48000000 / 17)
end

