-- ==== Sys2Proof/Laws/State.lean ====
section
/-! SUPPORT. One lemma per field per update of the state, true by rfl, so that no later proof unfolds a record
update; and the same for the pending set. -/

namespace Sys2Proof.Machine

variable (s : State)

@[simp] theorem State.setHw_hw (h : Hardware) : (s.setHw h).hw = h := rfl
@[simp] theorem State.setHw_undef (h : Hardware) : (s.setHw h).undef = s.undef := rfl
@[simp] theorem State.setHw_cause (h : Hardware) : (s.setHw h).cause = s.cause := rfl
@[simp] theorem State.setHw_refused (h : Hardware) : (s.setHw h).refused = s.refused := rfl
@[simp] theorem State.setHw_reason (h : Hardware) : (s.setHw h).reason = s.reason := rfl
@[simp] theorem State.setHw_buslog (h : Hardware) : (s.setHw h).buslog = s.buslog := rfl
@[simp] theorem State.setHw_txlog (h : Hardware) : (s.setHw h).txlog = s.txlog := rfl
@[simp] theorem State.setHw_pinlog (h : Hardware) : (s.setHw h).pinlog = s.pinlog := rfl
@[simp] theorem State.setHw_result (h : Hardware) : (s.setHw h).result = s.result := rfl
@[simp] theorem State.setHw_host (h : Hardware) : (s.setHw h).host = s.host := rfl
@[simp] theorem State.setHw_player (h : Hardware) : (s.setHw h).player = s.player := rfl
@[simp] theorem State.setHw_schedule (h : Hardware) : (s.setHw h).schedule = s.schedule := rfl
@[simp] theorem State.setHw_fresh (h : Hardware) : (s.setHw h).fresh = s.fresh := rfl

@[simp] theorem State.logBus_hw (sel : BitVec 10) (d : Word) : (s.logBus sel d).hw = s.hw := rfl
@[simp] theorem State.logBus_undef (sel : BitVec 10) (d : Word) : (s.logBus sel d).undef = s.undef := rfl
@[simp] theorem State.logBus_cause (sel : BitVec 10) (d : Word) : (s.logBus sel d).cause = s.cause := rfl
@[simp] theorem State.logBus_refused (sel : BitVec 10) (d : Word) : (s.logBus sel d).refused = s.refused := rfl
@[simp] theorem State.logBus_reason (sel : BitVec 10) (d : Word) : (s.logBus sel d).reason = s.reason := rfl
@[simp] theorem State.logBus_buslog (sel : BitVec 10) (d : Word) : (s.logBus sel d).buslog = s.buslog ++ [{ sel := sel, data := d }] := rfl
@[simp] theorem State.logBus_txlog (sel : BitVec 10) (d : Word) : (s.logBus sel d).txlog = s.txlog := rfl
@[simp] theorem State.logBus_pinlog (sel : BitVec 10) (d : Word) : (s.logBus sel d).pinlog = s.pinlog := rfl
@[simp] theorem State.logBus_result (sel : BitVec 10) (d : Word) : (s.logBus sel d).result = s.result := rfl
@[simp] theorem State.logBus_host (sel : BitVec 10) (d : Word) : (s.logBus sel d).host = s.host := rfl
@[simp] theorem State.logBus_player (sel : BitVec 10) (d : Word) : (s.logBus sel d).player = s.player := rfl
@[simp] theorem State.logBus_schedule (sel : BitVec 10) (d : Word) : (s.logBus sel d).schedule = s.schedule := rfl
@[simp] theorem State.logBus_fresh (sel : BitVec 10) (d : Word) : (s.logBus sel d).fresh = s.fresh := rfl

@[simp] theorem State.logTx_hw (e : TxEntry) : (s.logTx e).hw = s.hw := rfl
@[simp] theorem State.logTx_undef (e : TxEntry) : (s.logTx e).undef = s.undef := rfl
@[simp] theorem State.logTx_cause (e : TxEntry) : (s.logTx e).cause = s.cause := rfl
@[simp] theorem State.logTx_refused (e : TxEntry) : (s.logTx e).refused = s.refused := rfl
@[simp] theorem State.logTx_reason (e : TxEntry) : (s.logTx e).reason = s.reason := rfl
@[simp] theorem State.logTx_buslog (e : TxEntry) : (s.logTx e).buslog = s.buslog := rfl
@[simp] theorem State.logTx_txlog (e : TxEntry) : (s.logTx e).txlog = s.txlog ++ [e] := rfl
@[simp] theorem State.logTx_pinlog (e : TxEntry) : (s.logTx e).pinlog = s.pinlog := rfl
@[simp] theorem State.logTx_result (e : TxEntry) : (s.logTx e).result = s.result := rfl
@[simp] theorem State.logTx_host (e : TxEntry) : (s.logTx e).host = s.host := rfl
@[simp] theorem State.logTx_player (e : TxEntry) : (s.logTx e).player = s.player := rfl
@[simp] theorem State.logTx_schedule (e : TxEntry) : (s.logTx e).schedule = s.schedule := rfl
@[simp] theorem State.logTx_fresh (e : TxEntry) : (s.logTx e).fresh = s.fresh := rfl

@[simp] theorem State.logPin_hw (e : PinEntry) : (s.logPin e).hw = s.hw := rfl
@[simp] theorem State.logPin_undef (e : PinEntry) : (s.logPin e).undef = s.undef := rfl
@[simp] theorem State.logPin_cause (e : PinEntry) : (s.logPin e).cause = s.cause := rfl
@[simp] theorem State.logPin_refused (e : PinEntry) : (s.logPin e).refused = s.refused := rfl
@[simp] theorem State.logPin_reason (e : PinEntry) : (s.logPin e).reason = s.reason := rfl
@[simp] theorem State.logPin_buslog (e : PinEntry) : (s.logPin e).buslog = s.buslog := rfl
@[simp] theorem State.logPin_txlog (e : PinEntry) : (s.logPin e).txlog = s.txlog := rfl
@[simp] theorem State.logPin_pinlog (e : PinEntry) : (s.logPin e).pinlog = s.pinlog ++ [e] := rfl
@[simp] theorem State.logPin_result (e : PinEntry) : (s.logPin e).result = s.result := rfl
@[simp] theorem State.logPin_host (e : PinEntry) : (s.logPin e).host = s.host := rfl
@[simp] theorem State.logPin_player (e : PinEntry) : (s.logPin e).player = s.player := rfl
@[simp] theorem State.logPin_schedule (e : PinEntry) : (s.logPin e).schedule = s.schedule := rfl
@[simp] theorem State.logPin_fresh (e : PinEntry) : (s.logPin e).fresh = s.fresh := rfl

@[simp] theorem State.drawn_hw : (s.drawn).hw = s.hw := rfl
@[simp] theorem State.drawn_undef : (s.drawn).undef = s.undef := rfl
@[simp] theorem State.drawn_cause : (s.drawn).cause = s.cause := rfl
@[simp] theorem State.drawn_refused : (s.drawn).refused = s.refused := rfl
@[simp] theorem State.drawn_reason : (s.drawn).reason = s.reason := rfl
@[simp] theorem State.drawn_buslog : (s.drawn).buslog = s.buslog := rfl
@[simp] theorem State.drawn_txlog : (s.drawn).txlog = s.txlog := rfl
@[simp] theorem State.drawn_pinlog : (s.drawn).pinlog = s.pinlog := rfl
@[simp] theorem State.drawn_result : (s.drawn).result = s.result := rfl
@[simp] theorem State.drawn_host : (s.drawn).host = s.host := rfl
@[simp] theorem State.drawn_player : (s.drawn).player = s.player := rfl
@[simp] theorem State.drawn_schedule : (s.drawn).schedule = s.schedule := rfl
@[simp] theorem State.drawn_fresh : (s.drawn).fresh = s.fresh + 1 := rfl

@[simp] theorem State.scramble_hw : (s.scramble).hw = Config.freeHardware s.fresh := rfl
@[simp] theorem State.scramble_undef : (s.scramble).undef = s.undef := rfl
@[simp] theorem State.scramble_cause : (s.scramble).cause = s.cause := rfl
@[simp] theorem State.scramble_refused : (s.scramble).refused = s.refused := rfl
@[simp] theorem State.scramble_reason : (s.scramble).reason = s.reason := rfl
@[simp] theorem State.scramble_buslog : (s.scramble).buslog = s.buslog := rfl
@[simp] theorem State.scramble_txlog : (s.scramble).txlog = s.txlog := rfl
@[simp] theorem State.scramble_pinlog : (s.scramble).pinlog = s.pinlog := rfl
@[simp] theorem State.scramble_result : (s.scramble).result = s.result := rfl
@[simp] theorem State.scramble_host : (s.scramble).host = s.host := rfl
@[simp] theorem State.scramble_player : (s.scramble).player = s.player := rfl
@[simp] theorem State.scramble_schedule : (s.scramble).schedule = s.schedule := rfl
@[simp] theorem State.scramble_fresh : (s.scramble).fresh = s.fresh + 1 := rfl

@[simp] theorem State.unspecified_hw : (s.unspecified).hw = Config.freeHardware s.fresh := rfl
@[simp] theorem State.unspecified_undef : (s.unspecified).undef = s.undef := rfl
@[simp] theorem State.unspecified_cause : (s.unspecified).cause = s.cause := rfl
@[simp] theorem State.unspecified_refused : (s.unspecified).refused = s.refused := rfl
@[simp] theorem State.unspecified_reason : (s.unspecified).reason = s.reason := rfl
@[simp] theorem State.unspecified_buslog : (s.unspecified).buslog = s.buslog := rfl
@[simp] theorem State.unspecified_txlog : (s.unspecified).txlog = s.txlog := rfl
@[simp] theorem State.unspecified_pinlog : (s.unspecified).pinlog = s.pinlog := rfl
@[simp] theorem State.unspecified_result : (s.unspecified).result = s.draw := rfl
@[simp] theorem State.unspecified_host : (s.unspecified).host = s.host := rfl
@[simp] theorem State.unspecified_player : (s.unspecified).player = s.player := rfl
@[simp] theorem State.unspecified_schedule : (s.unspecified).schedule = s.schedule := rfl
@[simp] theorem State.unspecified_fresh : (s.unspecified).fresh = s.fresh + 1 := rfl

@[simp] theorem State.raiseFault_hw (u : Fault) (sel : BitVec 10) (w : Word) : (s.raiseFault u sel w).hw = Config.freeHardware s.fresh := rfl
@[simp] theorem State.raiseFault_undef (u : Fault) (sel : BitVec 10) (w : Word) : (s.raiseFault u sel w).undef = true := rfl
@[simp] theorem State.raiseFault_cause (u : Fault) (sel : BitVec 10) (w : Word) : (s.raiseFault u sel w).cause = some { code := u, sel := sel, wdata := w } := rfl
@[simp] theorem State.raiseFault_refused (u : Fault) (sel : BitVec 10) (w : Word) : (s.raiseFault u sel w).refused = s.refused := rfl
@[simp] theorem State.raiseFault_reason (u : Fault) (sel : BitVec 10) (w : Word) : (s.raiseFault u sel w).reason = s.reason := rfl
@[simp] theorem State.raiseFault_buslog (u : Fault) (sel : BitVec 10) (w : Word) : (s.raiseFault u sel w).buslog = s.buslog := rfl
@[simp] theorem State.raiseFault_txlog (u : Fault) (sel : BitVec 10) (w : Word) : (s.raiseFault u sel w).txlog = s.txlog := rfl
@[simp] theorem State.raiseFault_pinlog (u : Fault) (sel : BitVec 10) (w : Word) : (s.raiseFault u sel w).pinlog = s.pinlog := rfl
@[simp] theorem State.raiseFault_result (u : Fault) (sel : BitVec 10) (w : Word) : (s.raiseFault u sel w).result = s.result := rfl
@[simp] theorem State.raiseFault_host (u : Fault) (sel : BitVec 10) (w : Word) : (s.raiseFault u sel w).host = s.host := rfl
@[simp] theorem State.raiseFault_player (u : Fault) (sel : BitVec 10) (w : Word) : (s.raiseFault u sel w).player = s.player := rfl
@[simp] theorem State.raiseFault_schedule (u : Fault) (sel : BitVec 10) (w : Word) : (s.raiseFault u sel w).schedule = s.schedule := rfl
@[simp] theorem State.raiseFault_fresh (u : Fault) (sel : BitVec 10) (w : Word) : (s.raiseFault u sel w).fresh = s.fresh + 1 := rfl

@[simp] theorem State.refuse_hw (x : Reason) : (s.refuse x).hw = s.hw := rfl
@[simp] theorem State.refuse_undef (x : Reason) : (s.refuse x).undef = s.undef := rfl
@[simp] theorem State.refuse_cause (x : Reason) : (s.refuse x).cause = s.cause := rfl
@[simp] theorem State.refuse_refused (x : Reason) : (s.refuse x).refused = true := rfl
@[simp] theorem State.refuse_reason (x : Reason) : (s.refuse x).reason = some x := rfl
@[simp] theorem State.refuse_buslog (x : Reason) : (s.refuse x).buslog = s.buslog := rfl
@[simp] theorem State.refuse_txlog (x : Reason) : (s.refuse x).txlog = s.txlog := rfl
@[simp] theorem State.refuse_pinlog (x : Reason) : (s.refuse x).pinlog = s.pinlog := rfl
@[simp] theorem State.refuse_result (x : Reason) : (s.refuse x).result = s.result := rfl
@[simp] theorem State.refuse_host (x : Reason) : (s.refuse x).host = s.host := rfl
@[simp] theorem State.refuse_player (x : Reason) : (s.refuse x).player = s.player := rfl
@[simp] theorem State.refuse_schedule (x : Reason) : (s.refuse x).schedule = s.schedule := rfl
@[simp] theorem State.refuse_fresh (x : Reason) : (s.refuse x).fresh = s.fresh := rfl

@[simp] theorem State.resume_hw (op : HostOp) : (s.resume op).hw = s.hw := rfl
@[simp] theorem State.resume_undef (op : HostOp) : (s.resume op).undef = s.undef := rfl
@[simp] theorem State.resume_cause (op : HostOp) : (s.resume op).cause = s.cause := rfl
@[simp] theorem State.resume_refused (op : HostOp) : (s.resume op).refused = s.refused := rfl
@[simp] theorem State.resume_reason (op : HostOp) : (s.resume op).reason = s.reason := rfl
@[simp] theorem State.resume_buslog (op : HostOp) : (s.resume op).buslog = s.buslog := rfl
@[simp] theorem State.resume_txlog (op : HostOp) : (s.resume op).txlog = s.txlog := rfl
@[simp] theorem State.resume_pinlog (op : HostOp) : (s.resume op).pinlog = s.pinlog := rfl
@[simp] theorem State.resume_result (op : HostOp) : (s.resume op).result = s.result := rfl
@[simp] theorem State.resume_host (op : HostOp) : (s.resume op).host = op.left s.result ++ s.host := rfl
@[simp] theorem State.resume_player (op : HostOp) : (s.resume op).player = s.player := rfl
@[simp] theorem State.resume_schedule (op : HostOp) : (s.resume op).schedule = s.schedule := rfl
@[simp] theorem State.resume_fresh (op : HostOp) : (s.resume op).fresh = s.fresh := rfl

@[simp] theorem State.withRequest_hw (r : Request) : (s.withRequest r).hw = s.hw := rfl
@[simp] theorem State.withRequest_undef (r : Request) : (s.withRequest r).undef = s.undef := rfl
@[simp] theorem State.withRequest_cause (r : Request) : (s.withRequest r).cause = s.cause := rfl
@[simp] theorem State.withRequest_refused (r : Request) : (s.withRequest r).refused = s.refused := rfl
@[simp] theorem State.withRequest_reason (r : Request) : (s.withRequest r).reason = s.reason := rfl
@[simp] theorem State.withRequest_buslog (r : Request) : (s.withRequest r).buslog = s.buslog := rfl
@[simp] theorem State.withRequest_txlog (r : Request) : (s.withRequest r).txlog = s.txlog := rfl
@[simp] theorem State.withRequest_pinlog (r : Request) : (s.withRequest r).pinlog = s.pinlog := rfl
@[simp] theorem State.withRequest_result (r : Request) : (s.withRequest r).result = s.result := rfl
@[simp] theorem State.withRequest_host (r : Request) : (s.withRequest r).host = .issue r :: s.host := rfl
@[simp] theorem State.withRequest_player (r : Request) : (s.withRequest r).player = s.player := rfl
@[simp] theorem State.withRequest_schedule (r : Request) : (s.withRequest r).schedule = .host :: s.schedule := rfl
@[simp] theorem State.withRequest_fresh (r : Request) : (s.withRequest r).fresh = s.fresh := rfl

/-! ### The pins (R34) -/

/-- Where no serial clock period is running every pin is `any`. -/
theorem State.pins_none {s : State} (h : s.period = none) :
    s.pins.fs.any = true ∧ s.pins.sck.any = true ∧ s.pins.sd.any = true := by
  simp [State.pins, h]

/-- A period runs only where there is no fault, the clock unit runs and has begun one; it is the last one logged. -/
theorem State.period_eq_some {s : State} {e : PinEntry} :
    s.period = some e ↔ s.undef = false ∧ s.hw.clkRun = true ∧ s.hw.begun = true ∧ s.pinlog.getLast? = some e := by
  cases hu : s.undef <;> cases hc : s.hw.clkRun <;> cases hb : s.hw.begun <;> simp [State.period, hu, hc, hb]

/-- Where one is running, FS and SCK are that period's, and SD is where the serializer has begun a period of its run. -/
theorem State.pins_some {s : State} {e : PinEntry} (h : s.period = some e) :
    s.pins.fs = .val e.fs ∧ s.pins.sck = .val 1 ∧
    (s.hw.serRun = true → s.hw.serBegun = true → s.pins.sd = e.sd) := by
  simp only [State.pins, h]
  exact ⟨trivial, trivial, fun hs hb => by simp [hs, hb]⟩

/-- SD is `any` while the serializer is off, and from its start to the next serial clock period (R34, D29). -/
theorem State.pins_sd_any {s : State} (h : s.hw.serRun = false ∨ s.hw.serBegun = false) : s.pins.sd.any = true := by
  cases hp : s.period <;> rcases h with h | h <;> simp [State.pins, hp, h]

/-! ### The pending set -/

/-- Putting an item decides that item and leaves the others. -/
@[simp] theorem Pend.has_put (p : Pend) (i j : Item) (b : Bool) :
    (p.put i b).has j = if i = j then b else p.has j := by
  cases i <;> cases j <;> rfl

@[simp] theorem Pend.has_add (p : Pend) (i j : Item) :
    (p.add i).has j = if i = j then true else p.has j := Pend.has_put p i j true

@[simp] theorem Pend.has_drop (p : Pend) (i j : Item) :
    (p.drop i).has j = if i = j then false else p.has j := Pend.has_put p i j false

/-- Two sets with the same members are the same. -/
theorem Pend.ext_has {p q : Pend} (h : ∀ i, p.has i = q.has i) : p = q := by
  cases p
  cases q
  have h1 := h .enable
  have h2 := h .cken0
  have h3 := h .seren0
  have h4 := h .data0
  have h5 := h .clkctrl0
  have h6 := h .serctrl0
  simp_all [Pend.has]

end Sys2Proof.Machine
end

