-- ==== Sys2Proof/Laws/Agents.lean ====
section
/-! SUPPORT. What the hardware's own steps can do, said once: RUN_EDGES, SYNC, CGSYNC, a slot start, a serial
clock period, a source tick; and what none of them touches. -/

namespace Sys2Proof.Machine

/-! ### RUN_EDGES (R146) -/

/-- RUN_EDGES as one update: `t` restarts where the clock unit starts; the data path is emptied where the
serializer starts or stops, the write slot restarts where it starts, a pending word is cancelled where it stops. -/
theorem Hardware.runEdges_eq (h : Hardware) (draw : Word) (oldClk oldSer : Bool) :
    h.runEdges draw oldClk oldSer =
      { h with
        t := if h.clkRun && !oldClk then 0 else h.t
        begun := if h.clkRun && !oldClk then false else h.begun
        wslot := if h.serRun && !oldSer then 0 else h.wslot
        hold := if h.serRun != oldSer then none else h.hold
        sh := if h.serRun != oldSer then .free draw else h.sh
        serBegun := if h.serRun && !oldSer then false else h.serBegun
        pend := if oldSer && !h.serRun then h.pend.drop .data0 else h.pend } := by
  obtain ⟨ctrla, ⟨en, ck, se⟩⟩ := h
  cases en <;> cases ck <;> cases se <;> cases oldClk <;> cases oldSer <;> rfl

/-- RUN_EDGES keeps that a word in the shift register comes with a period of the serializer's run. `h` is `h₀` with an
effective enable changed. -/
theorem wordBegun_runEdges {h₀ h : Hardware} (draw : Word) (hw : h₀.WordBegun) (hs : h.sh = h₀.sh)
    (hb : h.serBegun = h₀.serBegun) : (h.runEdges draw h₀.clkRun h₀.serRun).WordBegun := by
  have hrun : (h.runEdges draw h₀.clkRun h₀.serRun).serRun = h.serRun := by rw [Hardware.runEdges_eq]; rfl
  unfold Hardware.WordBegun at *
  rw [hrun, Hardware.runEdges_eq]
  dsimp only
  cases a : h.serRun <;> cases b : h₀.serRun <;> simp_all

/-- A SYNC step keeps that the pin log agrees with the shift register: it logs no period, and where the serializer
starts none of its run has begun. -/
theorem bitsLoaded_syncItem {s : State} (draw : Word) (i : Item) (h : s.BitsLoaded) :
    ((s.setHw (s.hw.syncItem draw i)).drawn).BitsLoaded := by
  intro hr hb hs e he
  replace he : s.pinlog.getLast? = some e := he
  unfold State.BitsLoaded at h
  cases i <;>
    simp only [Hardware.syncItem, Hardware.syncEnable, Hardware.syncCken0, Hardware.syncSeren0, Hardware.runEdges_eq,
      Hardware.syncData0, State.drawn, State.setHw, Hardware.serRun, Hardware.clkRun] at h hr hb hs <;>
    cases a1 : s.hw.eff.enable <;> cases a2 : s.hw.eff.seren0 <;> cases a3 : s.hw.ctrla.enable <;>
    cases a4 : s.hw.ctrla.seren0 <;> simp_all

/-! ### The parts of the state that no agent's step touches -/

/-- `s` and `t` agree on everything but the hardware, the logs of slots and pins, and the count of free values. -/
def SameOutside (s t : State) : Prop :=
  t.undef = s.undef ∧ t.cause = s.cause ∧ t.refused = s.refused ∧ t.reason = s.reason ∧ t.buslog = s.buslog ∧
  t.result = s.result ∧ t.host = s.host ∧ t.schedule = s.schedule ∧ t.player = s.player

theorem SameOutside.rfl' (s : State) : SameOutside s s := ⟨rfl, rfl, rfl, rfl, rfl, rfl, rfl, rfl, rfl⟩

theorem SameOutside.trans' {s t u : State} (h : SameOutside s t) (k : SameOutside t u) : SameOutside s u := by
  obtain ⟨h1, h2, h3, h4, h5, h6, h7, h8, h9⟩ := h
  obtain ⟨k1, k2, k3, k4, k5, k6, k7, k8, k9⟩ := k
  exact ⟨k1.trans h1, k2.trans h2, k3.trans h3, k4.trans h4, k5.trans h5, k6.trans h6, k7.trans h7,
    k8.trans h8, k9.trans h9⟩

theorem sameOutside_setHw (s : State) (h : Hardware) : SameOutside s (s.setHw h) :=
  ⟨rfl, rfl, rfl, rfl, rfl, rfl, rfl, rfl, rfl⟩

/-! ### A slot start and a serial clock period (R148, R149) -/

theorem sameOutside_slotStart (draw : Word) (s : State) (slot : Slot) : SameOutside s (s.slotStart draw slot) := by
  unfold State.slotStart
  split
  · split <;> exact ⟨rfl, rfl, rfl, rfl, rfl, rfl, rfl, rfl, rfl⟩
  · exact ⟨rfl, rfl, rfl, rfl, rfl, rfl, rfl, rfl, rfl⟩

/-- A slot start loads the held word where it is for that slot. -/
theorem slotStart_load {draw : Word} {s : State} {slot : Slot} {x : Held} (h : s.hw.hold = some x)
    (hs : x.slot = slot) :
    s.slotStart draw slot =
      (s.setHw { s.hw with sh := .val x.word, hold := none }).logTx (.loaded slot x.word) := by
  simp [State.slotStart, h, hs]

/-- A slot start with no word for that slot is an underrun; a word for the other slot stays held. -/
theorem slotStart_underrun {draw : Word} {s : State} {slot : Slot} (h : ∀ x, s.hw.hold = some x → x.slot ≠ slot) :
    s.slotStart draw slot = (s.setHw { s.hw with txur0 := true, sh := .free draw }).logTx (.underrun slot) := by
  unfold State.slotStart
  split
  · rename_i x hx
    rw [if_neg (h x hx)]
  · rfl

theorem sameOutside_sckTick (p : Config.Params) (s : State) : SameOutside s (s.sckTick p) := by
  have h : SameOutside s (s.sckSlot s.draw) := by
    unfold State.sckSlot
    split
    · exact sameOutside_slotStart _ s _
    · exact .rfl' s
  exact h.trans' ⟨rfl, rfl, rfl, rfl, rfl, rfl, rfl, rfl, rfl⟩

/-- What a serial clock period leaves alone in the hardware, and what it always does: the frame position advances and
one entry joins `pinlog`. -/
theorem sckTick_frame (p : Config.Params) (s : State) :
    (s.sckTick p).hw = { s.hw with
      txur0 := (s.sckTick p).hw.txur0, hold := (s.sckTick p).hw.hold, sh := (s.sckTick p).hw.sh
      t := s.hw.t + 1, begun := true, serBegun := true } ∧
    (s.sckTick p).pinlog.length = s.pinlog.length + 1 := by
  unfold State.sckTick State.sckSlot State.slotStart
  dsimp only
  split
  · split
    · split <;> exact ⟨rfl, by simp⟩
    · exact ⟨rfl, by simp⟩
  · exact ⟨rfl, by simp⟩

/-- After a serial clock period one of the serializer's run has begun. -/
theorem wordBegun_sckTick (p : Config.Params) (s : State) : (s.sckTick p).hw.WordBegun := by
  rw [(sckTick_frame p s).1]
  exact fun _ _ => rfl

/-- The data bit a running serializer logs is `any` where the shift register is. -/
theorem bitsLoaded_sckTick (p : Config.Params) (s : State) : (s.sckTick p).BitsLoaded := by
  intro hr _ hs e he
  simp only [State.sckTick, State.sckSlot, State.slotStart, State.sckPins] at *
  (split at he <;> try split at he) <;> (try split at he) <;>
    simp_all [sdBit, State.setHw, State.drawn, State.logPin, State.logTx, Hardware.serRun] <;>
    (subst he; simp) <;> split <;> simp_all

/-- What a serial clock period does to the data path: nothing, an underrun, or the load of the held word. -/
theorem sckTick_slot (p : Config.Params) (s : State) :
    ((s.sckTick p).txlog = s.txlog ∧ (s.sckTick p).hw.hold = s.hw.hold ∧
      (s.sckTick p).hw.txur0 = s.hw.txur0) ∨
    (∃ slot, (s.sckTick p).txlog = s.txlog ++ [.underrun slot] ∧ (s.sckTick p).hw.hold = s.hw.hold ∧
      (s.sckTick p).hw.txur0 = true) ∨
    ∃ x, s.hw.hold = some x ∧ (s.sckTick p).txlog = s.txlog ++ [.loaded x.slot x.word] ∧
      (s.sckTick p).hw.hold = none ∧ (s.sckTick p).hw.txur0 = s.hw.txur0 := by
  unfold State.sckTick State.sckSlot State.slotStart
  dsimp only
  split
  · split
    · rename_i x hx
      split
      · rename_i hs
        exact .inr (.inr ⟨x, hx, by simp [hs], rfl, rfl⟩)
      · exact .inr (.inl ⟨_, rfl, rfl, rfl⟩)
    · exact .inr (.inl ⟨_, rfl, rfl, rfl⟩)
  · exact .inl ⟨rfl, rfl, rfl⟩

/-- One pass of SRCTICK's loop: the generator does not count this source; it counts on; its phase wraps without
reaching the clock unit; or its phase wraps and a serial clock period begins. -/
theorem tickGen_cases (p : Config.Params) (src : BitVec 4) (s : State) (g : Fin 16) :
    (¬(g.val < p.nGen ∧ s.hw.gen[g].genen = true ∧ s.hw.gen[g].src = src) ∧ s.tickGen p src g = s) ∨
    ((g.val < p.nGen ∧ s.hw.gen[g].genen = true ∧ s.hw.gen[g].src = src) ∧
      ((s.hw.cnt[g] + 1 ≠ s.hw.gen[g].div.toNat ∧
          s.tickGen p src g = s.setHw (s.hw.setCnt g (s.hw.cnt[g] + 1))) ∨
        (s.hw.cnt[g] + 1 = s.hw.gen[g].div.toNat ∧
          ((¬(s.hw.feedsAsc p g = true ∧ s.hw.clkRun = true) ∧ s.tickGen p src g = s.setHw (s.hw.setCnt g 0)) ∨
            (s.hw.feedsAsc p g = true ∧ s.hw.clkRun = true ∧
              s.tickGen p src g = (s.setHw (s.hw.setCnt g 0)).sckTick p))))) := by
  unfold State.tickGen State.ascClockPeriod
  dsimp only
  split
  · rename_i h
    refine .inr ⟨h, ?_⟩
    split
    · rename_i hd
      refine .inr ⟨hd, ?_⟩
      have hc : (s.setHw (s.hw.setCnt g 0)).hw.clkRun = s.hw.clkRun := rfl
      rw [hc]
      cases hf : s.hw.feedsAsc p g <;> cases hr : s.hw.clkRun <;> simp
    · exact .inl ⟨‹_›, rfl⟩
  · exact .inl ⟨‹_›, rfl⟩

theorem sameOutside_tickGen (p : Config.Params) (src : BitVec 4) (s : State) (g : Fin 16) :
    SameOutside s (s.tickGen p src g) := by
  unfold State.tickGen
  dsimp only
  split
  · split
    · split
      · unfold State.ascClockPeriod
        split
        · exact (sameOutside_setHw s _).trans' (sameOutside_sckTick p _)
        · exact sameOutside_setHw s _
      · exact sameOutside_setHw s _
    · exact sameOutside_setHw s _
  · exact .rfl' s

/-- The loop of SRCTICK: what every pass keeps, the whole step keeps. -/
theorem srcTick_induct {p : Config.Params} {src : BitVec 4} (Q : State → Prop)
    (hQ : ∀ s g, Q s → Q (s.tickGen p src g)) (s : State) (h : Q s) : Q (s.srcTick p src) := by
  unfold State.srcTick
  generalize List.finRange 16 = l
  induction l generalizing s with
  | nil => exact h
  | cons g l ih => exact ih _ (hQ s g h)

theorem sameOutside_srcTick (p : Config.Params) (src : BitVec 4) (s : State) : SameOutside s (s.srcTick p src) :=
  srcTick_induct (SameOutside s) (fun t g ht => ht.trans' (sameOutside_tickGen p src t g)) s (.rfl' s)

/-- No agent's step touches the marks, the HOST's side or the inputs. -/
theorem sameOutside_agentStep (p : Config.Params) (s : State) (turn : Turn) :
    SameOutside s (s.agentStep p turn) := by
  cases turn with
  | host => exact .rfl' s
  | cgSync => exact sameOutside_setHw s _
  | sync i => exact ⟨rfl, rfl, rfl, rfl, rfl, rfl, rfl, rfl, rfl⟩
  | srcTick src => exact sameOutside_srcTick p src s

end Sys2Proof.Machine
end

