-- ==== Sys2Proof/Laws/Config.lean ====
section
/-! SUPPORT. The machine's parameters lie in the ranges of spec/00_scope.md R4, whatever the open constants are. -/

namespace Sys2Proof.Config

theorem params_valid : params.Valid := by
  have hg := nGenLessOne.isLt
  have hs := nSrcLessOne.isLt
  refine ⟨?_, ?_, ?_, ?_, ?_, ?_, ?_⟩ <;> simp only [params, cgBaseOf] <;> try split
  all_goals omega

theorem nGen_pos : 1 ≤ params.nGen := params_valid.2.2.2.1

theorem nGen_le : params.nGen ≤ 16 := params_valid.2.2.2.2.1

theorem nSrc_pos : 1 ≤ params.nSrc := params_valid.2.2.2.2.2.1

/-- Every pair of bases in R4's range is one the open constants can give. -/
theorem cgBaseOf_disjoint {asc cg : Nat} (h : asc + 0x100 ≤ cg ∨ cg + 0x100 ≤ asc) : cgBaseOf asc cg = cg := by
  simp [cgBaseOf, h]

/-- The reference oscillator exists and runs at 48 MHz, and every source's frequency is a positive integer (R4). -/
theorem referenceSource_lt : referenceSource.toNat < params.nSrc := by
  have h : 1 ≤ params.nSrc := nSrc_pos
  simp only [referenceSource, BitVec.toNat_ofNat]
  exact (Nat.mod_le _ _).trans_lt (Nat.mod_lt _ h)

theorem sourceHz_reference : sourceHz referenceSource.toNat = 48000000 := if_pos rfl

theorem sourceHz_pos (s : Nat) : 0 < sourceHz s := by
  unfold sourceHz referenceHz
  split <;> omega

end Sys2Proof.Config
end

