-- ==== Sys2Proof/Laws/Decode.lean ====
section
/-! SUPPORT. What decoding does with a selector made of a register and a direction (spec/30_encoding.md R56). -/

namespace Sys2Proof

open Machine

theorem regAt_selector (r : Reg) (d : Dir) :
    regAt (selBlock (selector r d)) (selOffset (selector r d)) = some r := by
  cases r <;> cases d <;> decide

theorem selDir_selector (r : Reg) (d : Dir) : selDir (selector r d) = d := by
  cases r <;> cases d <;> decide

theorem selOffset_aligned (r : Reg) (d : Dir) : (selOffset (selector r d)).toNat % 4 = 0 := by
  cases r <;> cases d <;> decide

theorem badAccess_selector (r : Reg) (d : Dir) (w : Word) :
    badAccess { sel := selector r d, size := 4, wdata := w } = false := by
  simp [badAccess, selOffset_aligned]

theorem regAt_some {b : BitVec 1} {o : BitVec 8} {r : Reg} (h : regAt b o = some r) :
    r.block = b ∧ r.offset = o := by
  simpa using List.find?_some h

/-- A selector is its three fields (R56). -/
theorem sel_parts (sel : BitVec 10) : selBlock sel ++ (selDir sel).bit ++ selOffset sel = sel := by
  apply BitVec.eq_of_getLsbD_eq
  intro i hi
  rw [BitVec.getLsbD_append, BitVec.getLsbD_append]
  cases h : sel.getLsbD 8 <;> interval_cases i <;> simp_all [selBlock, selDir, selOffset, Dir.bit]

/-- The selector at which a register is found is that register's. -/
theorem selector_of_regAt {sel : BitVec 10} {r : Reg} (h : regAt (selBlock sel) (selOffset sel) = some r) :
    selector r (selDir sel) = sel := by
  obtain ⟨h1, h2⟩ := regAt_some h
  rw [selector, h1, h2, sel_parts]

/-- A write of a register is its write transaction, or X3 for a read-only one. -/
theorem decode_write (r : Reg) (w : Word) :
    decode { sel := selector r .write, size := 4, wdata := w } = (writeInstr w r).elim (.error .x3) .ok := by
  rw [decode, badAccess_selector]
  simp [regAt_selector, selDir_selector]

/-- A read of a register is its read transaction, or X4 for the write-only one, whatever its data word. -/
theorem decode_read (r : Reg) (w : Word) :
    decode { sel := selector r .read, size := 4, wdata := w } = (readInstr r).elim (.error .x4) .ok := by
  rw [decode, badAccess_selector]
  simp [regAt_selector, selDir_selector]

end Sys2Proof
end

