-- ==== Sys2Proof/Laws/Operands.lean ====
section
/-! SUPPORT. The fields of the assembled GENCFG and CLKROUTE words are the fields they were assembled from
(spec/30_encoding.md R57, spec/45_driver_sequences.md R170), and the driver's words are well formed. -/

namespace Sys2Proof.Machine

@[simp] theorem gencfgId_word (id src : BitVec 4) (div : BitVec 16) (en : Bool) :
    gencfgId (gencfgWord id src div en) = id := by
  apply BitVec.eq_of_getLsbD_eq
  intro i hi
  cases en <;> interval_cases i <;> simp [gencfgId, gencfgWord, Word.ofFlag]

@[simp] theorem gencfgSrc_word (id src : BitVec 4) (div : BitVec 16) (en : Bool) :
    gencfgSrc (gencfgWord id src div en) = src := by
  apply BitVec.eq_of_getLsbD_eq
  intro i hi
  cases en <;> interval_cases i <;> simp [gencfgSrc, gencfgWord, Word.ofFlag]

@[simp] theorem gencfgDiv_word (id src : BitVec 4) (div : BitVec 16) (en : Bool) :
    gencfgDiv (gencfgWord id src div en) = div := by
  apply BitVec.eq_of_getLsbD_eq
  intro i hi
  cases en <;> interval_cases i <;> simp [gencfgDiv, gencfgWord, Word.ofFlag]

@[simp] theorem gencfgGenen_word (id src : BitVec 4) (div : BitVec 16) (en : Bool) :
    gencfgGenen (gencfgWord id src div en) = en := by
  cases en <;> simp [gencfgGenen, gencfgWord, Word.ofFlag]

@[simp] theorem clkrouteCid_word (cid : BitVec 6) (g : BitVec 4) (en : Bool) :
    clkrouteCid (clkrouteWord cid g en) = cid := by
  apply BitVec.eq_of_getLsbD_eq
  intro i hi
  cases en <;> interval_cases i <;> simp [clkrouteCid, clkrouteWord, Word.ofFlag]

@[simp] theorem clkrouteGen_word (cid : BitVec 6) (g : BitVec 4) (en : Bool) :
    clkrouteGen (clkrouteWord cid g en) = g := by
  apply BitVec.eq_of_getLsbD_eq
  intro i hi
  cases en <;> interval_cases i <;> simp [clkrouteGen, clkrouteWord, Word.ofFlag]

@[simp] theorem clkrouteClken_word (cid : BitVec 6) (g : BitVec 4) (en : Bool) :
    clkrouteClken (clkrouteWord cid g en) = en := by
  cases en <;> simp [clkrouteClken, clkrouteWord, Word.ofFlag]

/-- GENCFG_REF(g, s) is for generator `g`: the source `s` divided by 17, enabled (R62). -/
@[simp] theorem gencfgRef_fields (g s : BitVec 4) :
    gencfgId (gencfgRef g s) = g ∧ gencfgEntry (gencfgRef g s) = { src := s, div := 17, genen := true } := by
  simp [gencfgRef, gencfgEntry, referenceDivisor]

/-- CLKROUTE_REF(g) routes generator `g` to the ASC (R62). -/
@[simp] theorem clkrouteRef_fields (p : Config.Params) (g : BitVec 4) :
    clkrouteCid (clkrouteRef p g) = p.ascCid ∧ clkrouteEntry (clkrouteRef p g) = { gen := g, clken := true } := by
  simp [clkrouteRef, clkrouteEntry]

/-- The driver's words set no reserved bit, so the check X5 lets them pass (R70). -/
theorem gencfgWord_reserved (id src : BitVec 4) (div : BitVec 16) (en : Bool) :
    gencfgWord id src div en &&& reservedMask .gencfg = 0 := by
  apply BitVec.eq_of_getLsbD_eq
  intro i hi
  cases en <;> interval_cases i <;> simp [gencfgWord, reservedMask, Word.ofFlag]

theorem clkrouteWord_reserved (cid : BitVec 6) (g : BitVec 4) (en : Bool) :
    clkrouteWord cid g en &&& reservedMask .clkroute = 0 := by
  apply BitVec.eq_of_getLsbD_eq
  intro i hi
  cases en <;> interval_cases i <;> simp [clkrouteWord, reservedMask, Word.ofFlag]

end Sys2Proof.Machine
end

