-- ==== Sys2Proof/Laws/Ops.lean ====
section
/-! SUPPORT. What the shared operations of the bus can do, said once: a transaction in a live state, after a
refusal and after a fault; what a verdict does to the state; and the inversion of the write and read
primitives. -/

namespace Sys2Proof.Machine

/-! ### The guard (R70) -/

theorem guarded_live {s : State} {k : Out} (h : s.Live) : guarded s k = k := by
  simp [guarded, h.1, h.2]

theorem guarded_refused {s : State} {k : Out} (h : s.refused = true) :
    guarded s k = .refused (.afterRefusal s.reason) := by
  simp [guarded, h]

theorem guarded_undef {s : State} {k : Out} (hr : s.refused = false) (hu : s.undef = true) :
    guarded s k = .next s.unspecified := by
  simp [guarded, hr, hu]

/-- If the guard answers a next state, then nothing was refused before, and either the state was faulted and is
unspecified now, or the guarded transaction answered it. -/
theorem guarded_next {s t : State} {k : Out} (h : guarded s k = .next t) :
    s.refused = false ∧ ((s.undef = true ∧ t = s.unspecified) ∨ (s.undef = false ∧ k = .next t)) := by
  unfold guarded at h
  split at h
  · cases h
  · rename_i hr
    split at h
    · rename_i hu
      cases h
      exact ⟨by simpa using hr, .inl ⟨hu, rfl⟩⟩
    · rename_i hu
      exact ⟨by simpa using hr, .inr ⟨by simpa using hu, h⟩⟩

/-! ### Verdicts (R7) -/

@[simp] theorem State.apply_accept (s : State) (sel : BitVec 10) (w : Word) (h : Hardware) :
    s.apply sel w (.accept h) = s.setHw h := rfl

@[simp] theorem State.apply_fault (s : State) (sel : BitVec 10) (w : Word) (u : Fault) :
    s.apply sel w (.fault u) = s.raiseFault u sel w := rfl

@[simp] theorem State.apply_refuse (s : State) (sel : BitVec 10) (w : Word) (x : Reason) :
    s.apply sel w (.refuse x) = s.refuse x := rfl

/-! ### The primitives (R71, R72) -/

/-- A read in a live state: the image is the result, and `buslog` gains the entry. -/
theorem busRead_live {r : Reg} {image : Hardware → Word} {s : State} (h : s.Live) :
    busRead r image s = .next { s.logBus (selector r .read) (image s.hw) with result := image s.hw } :=
  guarded_live h

/-- A well-formed write in a live state: the entry of `buslog`, then the register's verdict. -/
theorem busWrite_live {r : Reg} {w : Word} {rule : Hardware → Verdict} {s : State} (h : s.Live)
    (hw : w &&& reservedMask r = 0) :
    busWrite r w rule s = .next ((s.logBus (selector r .write) w).apply (selector r .write) w (rule s.hw)) := by
  rw [busWrite, guarded_live h]
  simp [hw]

/-- A write of a reserved bit in a live state is refused with X5 and not logged. -/
theorem busWrite_reserved {r : Reg} {w : Word} {rule : Hardware → Verdict} {s : State} (h : s.Live)
    (hw : w &&& reservedMask r ≠ 0) : busWrite r w rule s = .next (s.refuse .x5) := by
  rw [busWrite, guarded_live h, if_pos hw]

/-- Everything a read that answers a next state can have done. -/
theorem busRead_next {r : Reg} {image : Hardware → Word} {s t : State} (h : busRead r image s = .next t) :
    s.refused = false ∧ ((s.undef = true ∧ t = s.unspecified) ∨
      (s.undef = false ∧ t = { s.logBus (selector r .read) (image s.hw) with result := image s.hw })) := by
  obtain ⟨hr, ⟨hu, ht⟩ | ⟨hu, hk⟩⟩ := guarded_next h
  · exact ⟨hr, .inl ⟨hu, ht⟩⟩
  · cases hk
    exact ⟨hr, .inr ⟨hu, rfl⟩⟩

/-- Everything a write that answers a next state can have done. -/
theorem busWrite_next {r : Reg} {w : Word} {rule : Hardware → Verdict} {s t : State}
    (h : busWrite r w rule s = .next t) :
    s.refused = false ∧ ((s.undef = true ∧ t = s.unspecified) ∨
      (s.undef = false ∧ w &&& reservedMask r ≠ 0 ∧ t = s.refuse .x5) ∨
      (s.undef = false ∧ w &&& reservedMask r = 0 ∧
        t = (s.logBus (selector r .write) w).apply (selector r .write) w (rule s.hw))) := by
  obtain ⟨hr, ⟨hu, ht⟩ | ⟨hu, hk⟩⟩ := guarded_next h
  · exact ⟨hr, .inl ⟨hu, ht⟩⟩
  · refine ⟨hr, .inr ?_⟩
    split at hk
    · rename_i hw
      cases hk
      exact .inl ⟨hu, hw, rfl⟩
    · rename_i hw
      cases hk
      exact .inr ⟨hu, by simpa using hw, rfl⟩

/-- No transaction ends in `Outcome.fault`: a fault is taken as a next state (R204). -/
theorem guarded_not_fault {s : State} {k : Out} (hk : ∀ f, k ≠ .fault f) (f : Fault) : guarded s k ≠ .fault f := by
  unfold guarded
  split
  · exact fun h => by cases h
  · split
    · exact fun h => by cases h
    · exact hk f

end Sys2Proof.Machine
end

