-- ==== Sys2Proof/Laws/PerInstr.lean ====
section
/-! SUPPORT. One lemma per transaction of R58: what its encoding is read back as (spec/30_encoding.md R56, R58). -/

namespace Sys2Proof.Laws.Encoding

open Sys2Proof

/-- Decoding the encoded transaction gives it back, whatever its data word. -/
def Statement (i : Instr) : Prop := decode (encode i) = .ok i

theorem rdCtrla : Statement .rdCtrla := decode_read _ _
theorem wrCtrla (wdata : Word) : Statement (.wrCtrla wdata) := decode_write _ _
theorem rdClkctrl0 : Statement .rdClkctrl0 := decode_read _ _
theorem wrClkctrl0 (wdata : Word) : Statement (.wrClkctrl0 wdata) := decode_write _ _
theorem rdIntflag : Statement .rdIntflag := decode_read _ _
theorem wrIntflag (wdata : Word) : Statement (.wrIntflag wdata) := decode_write _ _
theorem rdSyncbusy : Statement .rdSyncbusy := decode_read _ _
theorem rdSerctrl0 : Statement .rdSerctrl0 := decode_read _ _
theorem wrSerctrl0 (wdata : Word) : Statement (.wrSerctrl0 wdata) := decode_write _ _
theorem wrData0 (wdata : Word) : Statement (.wrData0 wdata) := decode_write _ _
theorem rdCgstatus : Statement .rdCgstatus := decode_read _ _
theorem rdGencfg : Statement .rdGencfg := decode_read _ _
theorem wrGencfg (wdata : Word) : Statement (.wrGencfg wdata) := decode_write _ _
theorem rdClkroute : Statement .rdClkroute := decode_read _ _
theorem wrClkroute (wdata : Word) : Statement (.wrClkroute wdata) := decode_write _ _

end Sys2Proof.Laws.Encoding
end

