-- ==== Sys2Proof/Laws/Rules.lean ====
section
/-! SUPPORT. Each register's rule, said once: when it accepts and with what hardware, when it faults, when it
refuses (spec/41_clock_generator.md R81, R83; spec/42_control_config.md R100, R102, R104;
spec/43_data_flags.md R121, R122). -/

namespace Sys2Proof.Machine

variable {p : Config.Params} {w : Word} {h h' : Hardware}

/-! ### The conditions the rules test -/

theorem Enables.any_iff (e : Enables) : e.any = true ↔ e ≠ ⟨false, false, false⟩ := by
  obtain ⟨a, b, c⟩ := e
  cases a <;> cases b <;> cases c <;> simp [Enables.any]

theorem ascActive_iff (h : Hardware) :
    h.ascActive = true ↔ h.ctrla ≠ ⟨false, false, false⟩ ∨ h.eff ≠ ⟨false, false, false⟩ := by
  simp only [Hardware.ascActive, Bool.or_eq_true, Enables.any_iff]

theorem notFullyDisabled_iff (h : Hardware) :
    h.notFullyDisabled = true ↔ h.ctrla ≠ ⟨false, false, false⟩ ∨ h.eff ≠ ⟨false, false, false⟩ ∨
      h.pend.enable = true ∨ h.pend.cken0 = true ∨ h.pend.seren0 = true := by
  simp only [Hardware.notFullyDisabled, Pend.anyEnsync, Bool.or_eq_true, Enables.any_iff, or_assoc]

theorem txrdy0_iff (h : Hardware) :
    h.txrdy0 = true ↔ h.eff.enable = true ∧ h.eff.seren0 = true ∧ h.hold = none ∧ h.pend.data0 = false := by
  simp [Hardware.txrdy0, Hardware.serRun, and_assoc]

theorem refcfg_iff (h : Hardware) : h.refcfg = true ↔ h.clkctrl0 = 0x87 ∧ h.serctrl0 = 0x01 := by
  simp [Hardware.refcfg, clkctrl0Ref, serctrl0Ref]

theorem gencfgOutOfRange_iff (p : Config.Params) (w : Word) :
    gencfgOutOfRange p w = true ↔
      gencfgDiv w = 0 ∨ p.nGen ≤ (gencfgId w).toNat ∨ p.nSrc ≤ (gencfgSrc w).toNat := by
  simp only [gencfgOutOfRange, Bool.or_eq_true, beq_iff_eq, decide_eq_true_eq, or_assoc]

theorem clkrouteOutOfRange_iff (p : Config.Params) (w : Word) :
    clkrouteOutOfRange p w = true ↔ p.nGen ≤ (clkrouteGen w).toNat := by
  simp only [clkrouteOutOfRange, decide_eq_true_eq]

theorem gencfgTouchesAsc_iff (p : Config.Params) (w : Word) (h : Hardware) :
    gencfgTouchesAsc p w h = true ↔
      h.ascActive = true ∧ (h.ascChan p).clken = true ∧ (h.ascChan p).gen = gencfgId w := by
  simp only [gencfgTouchesAsc, Bool.and_eq_true, beq_iff_eq, and_assoc]

theorem clkrouteTouchesAsc_iff (p : Config.Params) (w : Word) (h : Hardware) :
    clkrouteTouchesAsc p w h = true ↔ h.ascActive = true ∧ clkrouteCid w = p.ascCid := by
  simp only [clkrouteTouchesAsc, Bool.and_eq_true, beq_iff_eq]

/-! ### The rules -/

theorem ctrlaRule_accept (he : h.pend.anyEnsync = false) (hc : h.pend.anyCfgsync = false)
    (hr : (ctrlaFields w).any = true → h.refcfg = true) :
    ctrlaRule w h = .accept { h with ctrla := ctrlaFields w, pend := h.pend.addEnsync } := by
  cases ha : (ctrlaFields w).any <;> simp_all [ctrlaRule]

theorem ctrlaRule_cases (w : Word) (h : Hardware) :
    ((h.pend.anyEnsync || h.pend.anyCfgsync) = true ∧ ctrlaRule w h = .fault .u2) ∨
    (h.pend.anyEnsync = false ∧ h.pend.anyCfgsync = false ∧ (ctrlaFields w).any = true ∧ h.refcfg = false ∧
      ctrlaRule w h = .refuse .x7) ∨
    (h.pend.anyEnsync = false ∧ h.pend.anyCfgsync = false ∧ ((ctrlaFields w).any = true → h.refcfg = true) ∧
      ctrlaRule w h = .accept { h with ctrla := ctrlaFields w, pend := h.pend.addEnsync }) := by
  cases he : h.pend.anyEnsync <;> cases hc : h.pend.anyCfgsync <;> cases ha : (ctrlaFields w).any <;>
    cases hr : h.refcfg <;> simp [ctrlaRule, *]

theorem clkctrl0Rule_cases (w : Word) (h : Hardware) :
    (h.notFullyDisabled = true ∧ clkctrl0Rule w h = .fault .u3) ∨
    (h.notFullyDisabled = false ∧ h.pend.clkctrl0 = true ∧ clkctrl0Rule w h = .fault .u4) ∨
    (h.notFullyDisabled = false ∧ h.pend.clkctrl0 = false ∧
      clkctrl0Rule w h = .accept { h with clkctrl0 := w, pend := h.pend.add .clkctrl0 }) := by
  cases hd : h.notFullyDisabled <;> cases hp : h.pend.clkctrl0 <;> simp [clkctrl0Rule, *]

theorem serctrl0Rule_cases (w : Word) (h : Hardware) :
    (h.notFullyDisabled = true ∧ serctrl0Rule w h = .fault .u3) ∨
    (h.notFullyDisabled = false ∧ h.pend.serctrl0 = true ∧ serctrl0Rule w h = .fault .u4) ∨
    (h.notFullyDisabled = false ∧ h.pend.serctrl0 = false ∧
      serctrl0Rule w h = .accept { h with serctrl0 := w, pend := h.pend.add .serctrl0 }) := by
  cases hd : h.notFullyDisabled <;> cases hp : h.pend.serctrl0 <;> simp [serctrl0Rule, *]

theorem data0Rule_cases (w : Word) (h : Hardware) :
    (h.txrdy0 = false ∧ data0Rule w h = .fault .u5) ∨
    (h.txrdy0 = true ∧ data0Rule w h =
      .accept { h with datareg := w, datatag := h.wslot, wslot := h.wslot + 1, pend := h.pend.add .data0 }) := by
  cases hr : h.txrdy0 <;> simp [data0Rule, *]

theorem gencfgRule_cases (p : Config.Params) (w : Word) (h : Hardware) :
    (h.cgbusy = true ∧ gencfgRule p w h = .fault .u1) ∨
    (h.cgbusy = false ∧ gencfgOutOfRange p w = true ∧ gencfgRule p w h = .refuse .x6) ∨
    (h.cgbusy = false ∧ gencfgOutOfRange p w = false ∧ gencfgTouchesAsc p w h = true ∧
      gencfgRule p w h = .refuse .x8) ∨
    (h.cgbusy = false ∧ gencfgOutOfRange p w = false ∧ gencfgTouchesAsc p w h = false ∧
      gencfgRule p w h = .accept { h with gencfg := w, cgpend := .gen w, cgbusy := true }) := by
  cases hb : h.cgbusy <;> cases hr : gencfgOutOfRange p w <;> cases ht : gencfgTouchesAsc p w h <;>
    simp [gencfgRule, *]

theorem clkrouteRule_cases (p : Config.Params) (w : Word) (h : Hardware) :
    (h.cgbusy = true ∧ clkrouteRule p w h = .fault .u1) ∨
    (h.cgbusy = false ∧ clkrouteOutOfRange p w = true ∧ clkrouteRule p w h = .refuse .x6) ∨
    (h.cgbusy = false ∧ clkrouteOutOfRange p w = false ∧ clkrouteTouchesAsc p w h = true ∧
      clkrouteRule p w h = .refuse .x8) ∨
    (h.cgbusy = false ∧ clkrouteOutOfRange p w = false ∧ clkrouteTouchesAsc p w h = false ∧
      clkrouteRule p w h = .accept { h with clkroute := w, cgpend := .route w, cgbusy := true }) := by
  cases hb : h.cgbusy <;> cases hr : clkrouteOutOfRange p w <;> cases ht : clkrouteTouchesAsc p w h <;>
    simp [clkrouteRule, *]

/-- WR.INTFLAG changes nothing but TXUR0, and only towards 0 (R121). -/
theorem intflagRule_eq (w : Word) (h : Hardware) :
    intflagRule w h = .accept { h with txur0 := h.txur0 && !intflagTxur0 w } := by
  cases hw : intflagTxur0 w <;> simp [intflagRule, hw]

/-! ### The whole of a transaction -/

/-- The image a read transaction returns; `none` for a write. -/
def readImage : Instr → Option (Hardware → Word)
  | .rdCtrla => some ctrlaImage
  | .rdClkctrl0 => some Hardware.clkctrl0
  | .rdIntflag => some intflagImage
  | .rdSyncbusy => some syncbusyImage
  | .rdSerctrl0 => some Hardware.serctrl0
  | .rdCgstatus => some cgstatusImage
  | .rdGencfg => some Hardware.gencfg
  | .rdClkroute => some Hardware.clkroute
  | .wrCtrla _ | .wrClkctrl0 _ | .wrIntflag _ | .wrSerctrl0 _ | .wrData0 _ | .wrGencfg _ | .wrClkroute _ => none

/-- The data word and the register's rule of a write transaction; `none` for a read. -/
def writeRule : Instr → Option (Word × (Hardware → Verdict))
  | .wrCtrla w => some (w, ctrlaRule w)
  | .wrClkctrl0 w => some (w, clkctrl0Rule w)
  | .wrIntflag w => some (w, intflagRule w)
  | .wrSerctrl0 w => some (w, serctrl0Rule w)
  | .wrData0 w => some (w, data0Rule w)
  | .wrGencfg w => some (w, gencfgRule Config.params w)
  | .wrClkroute w => some (w, clkrouteRule Config.params w)
  | .rdCtrla | .rdClkctrl0 | .rdIntflag | .rdSyncbusy | .rdSerctrl0 => none
  | .rdCgstatus | .rdGencfg | .rdClkroute => none

/-- Every transaction is the read primitive with its image or the write primitive with its rule. -/
theorem exec_form (i : Instr) :
    (∃ image, readImage i = some image ∧ ∀ s, exec i s = busRead i.reg image s) ∨
    (∃ w rule, writeRule i = some (w, rule) ∧ i.wdata? = some w ∧ ∀ s, exec i s = busWrite i.reg w rule s) := by
  cases i
  case rdCtrla | rdClkctrl0 | rdIntflag | rdSyncbusy | rdSerctrl0 | rdCgstatus | rdGencfg | rdClkroute =>
    exact .inl ⟨_, rfl, fun _ => rfl⟩
  all_goals exact .inr ⟨_, _, rfl, rfl, fun _ => rfl⟩

/-- No transaction ends in `Outcome.fault` (R204: the fault is taken). -/
theorem exec_not_fault (i : Instr) (s : State) (f : Fault) : exec i s ≠ .fault f := by
  obtain ⟨image, -, he⟩ | ⟨w, rule, -, -, he⟩ := exec_form i <;> rw [he s]
  · exact guarded_not_fault (fun _ h => by cases h) f
  · refine guarded_not_fault (fun _ h => ?_) f
    split at h <;> cases h

end Sys2Proof.Machine
end

