-- ==== Sys2Proof/Laws/Step.lean ====
section
/-! SUPPORT. What one step can do, said once: the inversion of `step`, of a request and of an agent's turn. -/

namespace Sys2Proof.Machine

/-! ### Taking a turn changes nothing but the schedule and the counter -/

@[simp] theorem State.turnTaken_hw (s : State) : s.turnTaken.hw = s.hw := by unfold State.turnTaken; split <;> rfl
@[simp] theorem State.turnTaken_undef (s : State) : s.turnTaken.undef = s.undef := by
  unfold State.turnTaken; split <;> rfl
@[simp] theorem State.turnTaken_cause (s : State) : s.turnTaken.cause = s.cause := by
  unfold State.turnTaken; split <;> rfl
@[simp] theorem State.turnTaken_refused (s : State) : s.turnTaken.refused = s.refused := by
  unfold State.turnTaken; split <;> rfl
@[simp] theorem State.turnTaken_reason (s : State) : s.turnTaken.reason = s.reason := by
  unfold State.turnTaken; split <;> rfl
@[simp] theorem State.turnTaken_buslog (s : State) : s.turnTaken.buslog = s.buslog := by
  unfold State.turnTaken; split <;> rfl
@[simp] theorem State.turnTaken_txlog (s : State) : s.turnTaken.txlog = s.txlog := by
  unfold State.turnTaken; split <;> rfl
@[simp] theorem State.turnTaken_pinlog (s : State) : s.turnTaken.pinlog = s.pinlog := by
  unfold State.turnTaken; split <;> rfl
@[simp] theorem State.turnTaken_result (s : State) : s.turnTaken.result = s.result := by
  unfold State.turnTaken; split <;> rfl
@[simp] theorem State.turnTaken_host (s : State) : s.turnTaken.host = s.host := by
  unfold State.turnTaken; split <;> rfl
@[simp] theorem State.turnTaken_player (s : State) : s.turnTaken.player = s.player := by
  unfold State.turnTaken; split <;> rfl

@[simp] theorem State.withRequest_turn (s : State) (r : Request) : (s.withRequest r).turn = .host := rfl

@[simp] theorem State.withRequest_turnTaken (s : State) (r : Request) :
    (s.withRequest r).turnTaken = { s with host := .issue r :: s.host } := rfl

/-! ### A pass of the playback loop (R180) -/

/-- A pass of the playback loop is the HOST's alone: it changes its program, its variables and the count of free
values. -/
theorem playbackPass_cases (s : State) :
    (s.player = none ∧ s.playbackPass = s) ∨
    ∃ x, s.player = some x ∧ s.playbackPass = { s with
      host := x.calls (x.triggered (Config.freeTrigger s.fresh))
      player := some (x.passed (x.triggered (Config.freeTrigger s.fresh))), fresh := s.fresh + 1 } := by
  unfold State.playbackPass
  split
  · exact .inl ⟨‹_›, rfl⟩
  · exact .inr ⟨_, ‹_›, rfl⟩

@[simp] theorem State.playbackPass_hw (s : State) : s.playbackPass.hw = s.hw := by
  unfold State.playbackPass; split <;> rfl
@[simp] theorem State.playbackPass_undef (s : State) : s.playbackPass.undef = s.undef := by
  unfold State.playbackPass; split <;> rfl
@[simp] theorem State.playbackPass_cause (s : State) : s.playbackPass.cause = s.cause := by
  unfold State.playbackPass; split <;> rfl
@[simp] theorem State.playbackPass_refused (s : State) : s.playbackPass.refused = s.refused := by
  unfold State.playbackPass; split <;> rfl
@[simp] theorem State.playbackPass_reason (s : State) : s.playbackPass.reason = s.reason := by
  unfold State.playbackPass; split <;> rfl
@[simp] theorem State.playbackPass_buslog (s : State) : s.playbackPass.buslog = s.buslog := by
  unfold State.playbackPass; split <;> rfl
@[simp] theorem State.playbackPass_txlog (s : State) : s.playbackPass.txlog = s.txlog := by
  unfold State.playbackPass; split <;> rfl
@[simp] theorem State.playbackPass_pinlog (s : State) : s.playbackPass.pinlog = s.pinlog := by
  unfold State.playbackPass; split <;> rfl
@[simp] theorem State.playbackPass_result (s : State) : s.playbackPass.result = s.result := by
  unfold State.playbackPass; split <;> rfl
@[simp] theorem State.playbackPass_schedule (s : State) : s.playbackPass.schedule = s.schedule := by
  unfold State.playbackPass; split <;> rfl

/-! ### Requests -/

/-- A request is a transaction or a rejection. -/
theorem runRequest_cases (r : Request) (s : State) :
    (∃ i, decode r = .ok i ∧ runRequest r s = exec i s) ∨
    (∃ x, decode r = .error x ∧ runRequest r s = rejectRequest x s) := by
  unfold runRequest
  split
  · rename_i i hi
    exact .inl ⟨i, hi, rfl⟩
  · rename_i x hx
    exact .inr ⟨x, hx, rfl⟩

/-- Everything a bus transaction that answers a next state can have done: nothing specified, after a fault; a refusal;
a read's image returned and logged; a write's rule applied, its word having no reserved bit set. -/
theorem runRequest_next {r : Request} {s u : State} (h : runRequest r s = .next u) :
    s.refused = false ∧ ((s.undef = true ∧ u = s.unspecified) ∨ (s.undef = false ∧ ((∃ x, u = s.refuse x) ∨
      (∃ i image, decode r = .ok i ∧ readImage i = some image ∧
        u = { s.logBus (selector i.reg .read) (image s.hw) with result := image s.hw }) ∨
      (∃ i w rule, decode r = .ok i ∧ writeRule i = some (w, rule) ∧ i.wdata? = some w ∧
        w &&& reservedMask i.reg = 0 ∧
        u = (s.logBus (selector i.reg .write) w).apply (selector i.reg .write) w (rule s.hw))))) := by
  obtain ⟨i, hd, he⟩ | ⟨x, hx, he⟩ := runRequest_cases r s <;> rw [he] at h
  · obtain ⟨im, hi, he⟩ | ⟨w, rule, hrule, hw, he⟩ := exec_form i <;> rw [he] at h
    · obtain ⟨hr, ⟨a, rfl⟩ | ⟨a, rfl⟩⟩ := busRead_next h
      · exact ⟨hr, .inl ⟨a, rfl⟩⟩
      · exact ⟨hr, .inr ⟨a, .inr (.inl ⟨i, im, hd, hi, rfl⟩)⟩⟩
    · obtain ⟨hr, ⟨a, rfl⟩ | ⟨a, -, rfl⟩ | ⟨a, b, rfl⟩⟩ := busWrite_next h
      · exact ⟨hr, .inl ⟨a, rfl⟩⟩
      · exact ⟨hr, .inr ⟨a, .inl ⟨_, rfl⟩⟩⟩
      · exact ⟨hr, .inr ⟨a, .inr (.inr ⟨i, w, rule, hd, hrule, hw, b, rfl⟩)⟩⟩
  · obtain ⟨hr, ⟨a, rfl⟩ | ⟨a, b⟩⟩ := guarded_next h
    · exact ⟨hr, .inl ⟨a, rfl⟩⟩
    · cases b
      exact ⟨hr, .inr ⟨a, .inl ⟨_, rfl⟩⟩⟩

/-- The transaction the HOST's next operation makes. -/
theorem nextInstr_of {s : State} {op : HostOp} {rest : List HostOp} {i : Instr} (h1 : s.turn = .host)
    (h2 : s.host = op :: rest) (h3 : decode op.request = .ok i) : s.nextInstr = some i := by
  simp [State.nextInstr, h1, h2, h3]

/-! ### Turns -/

/-- An agent's turn is the agent's step where it is enabled, else nothing; after a fault the hardware is
unspecified. -/
theorem agentTurn_cases (p : Config.Params) (s : State) (turn : Turn) :
    (s.undef = true ∧ s.agentTurn p turn = s.scramble) ∨
    (s.undef = false ∧ s.enabled p turn = true ∧ s.agentTurn p turn = s.agentStep p turn) ∨
    (s.undef = false ∧ s.enabled p turn = false ∧ s.agentTurn p turn = s) := by
  cases hu : s.undef <;> cases he : s.enabled p turn <;> simp [State.agentTurn, hu, he]

/-- Everything a step that answers a next state can have done: the HOST's turn with its program run out (a pass of the
playback loop, if it runs), the HOST's next operation, or an agent's turn. -/
theorem step_next {s t : State} (h : step s = .next t) :
    (s.turn = .host ∧ s.host = [] ∧ t = s.turnTaken.playbackPass) ∨
    (∃ op rest u, s.turn = .host ∧ s.host = op :: rest ∧
      runRequest op.request { s.turnTaken with host := rest } = .next u ∧ t = u.resume op) ∨
    (s.turn ≠ .host ∧ t = s.turnTaken.agentTurn Config.params s.turn) := by
  unfold step runTurn at h
  cases hturn : s.turn with
  | host =>
    rw [hturn] at h
    dsimp only at h
    unfold hostTurn at h
    split at h
    · rename_i hh
      cases h
      exact .inl ⟨rfl, by simpa using hh, rfl⟩
    · rename_i op rest hh
      refine .inr (.inl ⟨op, rest, ?_⟩)
      cases hr : runRequest op.request { s.turnTaken with host := rest } with
      | next u =>
        rw [hr] at h
        cases h
        exact ⟨u, rfl, by simpa using hh, rfl, rfl⟩
      | fault f => rw [hr] at h; cases h
      | refused r => rw [hr] at h; cases h
  | cgSync => rw [hturn] at h; cases h; exact .inr (.inr ⟨by simp, rfl⟩)
  | sync i => rw [hturn] at h; cases h; exact .inr (.inr ⟨by simp, rfl⟩)
  | srcTick src => rw [hturn] at h; cases h; exact .inr (.inr ⟨by simp, rfl⟩)

end Sys2Proof.Machine
end

