-- ==== Sys2Proof/Laws/Run.lean ====
section
/-! SUPPORT. One step at a time along a schedule: the HOST's write, its poll that is satisfied, CGSYNC and SYNC, each
as an equation of `step`, and how runs are put together from them. -/

namespace Sys2Proof.Machine

/-- A run of `k + 1` steps is the first step and a run of `k`. -/
theorem run_succ_of {M : Host.Core} {k : Nat} {s t : M.State} (h : M.step s = .next t) :
    M.run (k + 1) s = M.run k t := by
  simp only [Host.Core.run, h]

theorem run_succ {k : Nat} {s t u : State} (h : step s = .next t) (hr : core.run k t = .next u) :
    core.run (k + 1) s = .next u :=
  (run_succ_of (M := core) h).trans hr

variable {s : State} {ts : List Turn} {rest : List HostOp} {r : Reg} {i : Instr}

theorem turn_of_schedule {turn : Turn} (h : s.schedule = turn :: ts) : s.turn = turn := by
  simp [State.turn, h]

theorem turnTaken_of_schedule {turn : Turn} (h : s.schedule = turn :: ts) :
    s.turnTaken = { s with schedule := ts } := by
  simp [State.turnTaken, h]

/-- The HOST's turn with a WR first in its program. -/
theorem step_wrOp {w : Word} {rule : Hardware → Verdict} (hl : s.Live) (hs : s.schedule = .host :: ts)
    (hh : s.host = wrOp r w :: rest) (hd : writeInstr w r = some i) (he : ∀ s, exec i s = busWrite r w rule s)
    (hw : w &&& reservedMask r = 0) :
    step s = .next ((State.logBus { s with schedule := ts, host := rest } (selector r .write) w).apply
      (selector r .write) w (rule s.hw)) := by
  have e : decode (wrOp r w).request = .ok i := by
    show decode { sel := selector r .write, size := 4, wdata := w } = _
    rw [decode_write, hd]
    rfl
  simp only [step, runTurn, turn_of_schedule hs, hostTurn, turnTaken_of_schedule hs, hh, runRequest, e]
  rw [he, busWrite_live (s := { s with host := rest, schedule := ts }) hl hw]
  simp only [resumeOut, State.resume, wrOp, HostOp.left, List.nil_append]

/-- The HOST's turn with a POLL first in its program that finds what it wants. -/
theorem step_pollOp {mask want : Word} {image : Hardware → Word} (hl : s.Live) (hs : s.schedule = .host :: ts)
    (hh : s.host = pollOp r mask want :: rest) (hd : readInstr r = some i)
    (he : ∀ s, exec i s = busRead r image s) (hw : image s.hw &&& mask = want) :
    step s = .next { State.logBus { s with schedule := ts, host := rest } (selector r .read) (image s.hw) with
      result := image s.hw } := by
  have e : decode (pollOp r mask want).request = .ok i := by
    show decode { sel := selector r .read, size := 4, wdata := 0 } = _
    rw [decode_read, hd]
    rfl
  simp only [step, runTurn, turn_of_schedule hs, hostTurn, turnTaken_of_schedule hs, hh, runRequest, e]
  rw [he, busRead_live (s := { s with host := rest, schedule := ts }) hl]
  simp only [resumeOut, State.resume, pollOp, HostOp.left]
  simp [hw]

/-- SYNC's turn with its item pending and the ASC's clock on. -/
theorem step_sync {item : Item} (hl : s.Live) (hs : s.schedule = .sync item :: ts)
    (hc : s.hw.ascClkOn Config.params = true) (hp : s.hw.pend.has item = true) :
    step s = .next { s with schedule := ts, hw := s.hw.syncItem s.draw item, fresh := s.fresh + 1 } := by
  simp [step, runTurn, turn_of_schedule hs, turnTaken_of_schedule hs, State.agentTurn, hl.1, State.enabled, hc, hp,
    State.agentStep, State.setHw, State.drawn, State.draw]

/-- CGSYNC's turn with a write pending. -/
theorem step_cgSync (hl : s.Live) (hs : s.schedule = .cgSync :: ts) (hp : s.hw.cgpend ≠ .none) :
    step s = .next { s with schedule := ts, hw := s.hw.cgSync } := by
  simp [step, runTurn, turn_of_schedule hs, turnTaken_of_schedule hs, State.agentTurn, hl.1, State.enabled, hp,
    State.agentStep, State.setHw]

/-- SYNC changes neither the CG's tables nor the written values. -/
theorem syncItem_frame (h : Hardware) (draw : Word) (item : Item) :
    (h.syncItem draw item).gen = h.gen ∧ (h.syncItem draw item).chan = h.chan ∧
      (h.syncItem draw item).clkctrl0 = h.clkctrl0 ∧ (h.syncItem draw item).serctrl0 = h.serctrl0 ∧
      (h.syncItem draw item).ctrla = h.ctrla := by
  cases item <;> simp [Hardware.syncItem, Hardware.syncEnable, Hardware.syncCken0, Hardware.syncSeren0,
    Hardware.runEdges_eq, Hardware.syncData0]

end Sys2Proof.Machine
end

