-- ==== Sys2Proof/Tests/Slice0.lean ====
section
/-! SUPPORT. The model's own tests. Expected values come from spec/95_test_vectors.md (the vector's name stands in
the comment) or from the encodings of spec/30_encoding.md, never from the model. After them, one witness for each
statement that has hypotheses: a concrete state and operands that meet them all together. -/

namespace Sys2Proof.Tests

open Sys2Proof Sys2Proof.Machine

/-! ### Well-formedness: an ill-formed word for each register a write can name (vector A6), and a well-formed one -/

theorem test_ctrla_reserved_bit0 : (Instr.wrCtrla 0x00000001).wellFormed = false := by decide
theorem test_clkctrl0_reserved_bit5 : (Instr.wrClkctrl0 0x00000020).wellFormed = false := by decide
theorem test_serctrl0_reserved_bit2 : (Instr.wrSerctrl0 0x00000004).wellFormed = false := by decide
theorem test_intflag_reserved_bit0 : (Instr.wrIntflag 0x00000001).wellFormed = false := by decide
theorem test_gencfg_reserved_bit9 : (Instr.wrGencfg 0x00110301).wellFormed = false := by decide
theorem test_clkroute_reserved_bit6 : (Instr.wrClkroute 0x00004143).wellFormed = false := by decide
/-- DATA0 reserves nothing (R24, F11). -/
theorem test_data0_reserves_nothing : (Instr.wrData0 0xFFFFFFFF).wellFormed = true := by decide
theorem test_driver_words_wellFormed :
    [Instr.wrCtrla 0x16, .wrClkctrl0 0x87, .wrSerctrl0 0x01, .wrIntflag 0x1100, .wrGencfg 0x00110101,
      .wrClkroute 0x4103].all Instr.wellFormed = true := by decide

/-! ### Decoding: each transaction's selector written out bit by bit from R56 and R58 (BLK, DIR, OFF), with its data
word in bits 47 to 16 (log 13) -/

theorem test_decode_rdCtrla : decodeTableWord 16 0b0_0_00000000 = some .rdCtrla := by decide
theorem test_decode_wrCtrla :
    decodeTableWord 48 (0x00000016 * 0x10000 + 0b0_1_00000000) = some (.wrCtrla 0x16) := by decide
theorem test_decode_rdClkctrl0 : decodeTableWord 16 0b0_0_00000100 = some .rdClkctrl0 := by decide
theorem test_decode_wrClkctrl0 :
    decodeTableWord 48 (0x00000087 * 0x10000 + 0b0_1_00000100) = some (.wrClkctrl0 0x87) := by decide
theorem test_decode_rdIntflag : decodeTableWord 16 0b0_0_00010100 = some .rdIntflag := by decide
theorem test_decode_wrIntflag :
    decodeTableWord 48 (0x00001000 * 0x10000 + 0b0_1_00010100) = some (.wrIntflag 0x1000) := by decide
theorem test_decode_rdSyncbusy : decodeTableWord 16 0b0_0_00011000 = some .rdSyncbusy := by decide
theorem test_decode_rdSerctrl0 : decodeTableWord 16 0b0_0_00100000 = some .rdSerctrl0 := by decide
theorem test_decode_wrSerctrl0 :
    decodeTableWord 48 (0x00000001 * 0x10000 + 0b0_1_00100000) = some (.wrSerctrl0 0x01) := by decide
theorem test_decode_wrData0 :
    decodeTableWord 48 (0xFF380000 * 0x10000 + 0b0_1_00110000) = some (.wrData0 0xFF380000) := by decide
theorem test_decode_rdCgstatus : decodeTableWord 16 0b1_0_00000000 = some .rdCgstatus := by decide
theorem test_decode_rdGencfg : decodeTableWord 16 0b1_0_00000100 = some .rdGencfg := by decide
theorem test_decode_wrGencfg :
    decodeTableWord 48 (0x00110101 * 0x10000 + 0b1_1_00000100) = some (.wrGencfg 0x00110101) := by decide
theorem test_decode_rdClkroute : decodeTableWord 16 0b1_0_00001000 = some .rdClkroute := by decide
theorem test_decode_wrClkroute :
    decodeTableWord 48 (0x00004103 * 0x10000 + 0b1_1_00001000) = some (.wrClkroute 0x4103) := by decide

/-- A2 to A5: the refusals of decoding. -/
theorem test_decode_refusals :
    [decode ⟨0x000, 2, 0⟩, decode ⟨0x002, 4, 0⟩, decode ⟨0x00C, 4, 0⟩, decode ⟨0x20C, 4, 0⟩, decode ⟨0x118, 4, 0⟩,
      decode ⟨0x300, 4, 0⟩, decode ⟨0x030, 4, 0⟩].map (fun d => match d with | .ok _ => none | .error x => some x) =
    [some .x1, some .x1, some .x2, some .x2, some .x3, some .x3, some .x4] := by decide

/-! ### The vectors' start states, under their example parameters -/

/-- "Example parameter values, used in every vector". -/
def exParams : Config.Params := ⟨0x1000, 0x2000, 2, 1, 3, false⟩

/-- A state with this hardware and nothing else. -/
def withHw (h : Hardware) : State := { State.reset with hw := h }

/-- S_CLOCKED. -/
def sClocked : Hardware :=
  { Hardware.reset with
    gencfg := 0x00110101, clkroute := 0x00004103
    gen := Hardware.reset.gen.set 1 ⟨0, 17, true⟩, chan := Hardware.reset.chan.set 3 ⟨1, true⟩ }

/-- S_CONF. -/
def sConf : Hardware := { sClocked with clkctrl0 := 0x87, serctrl0 := 0x01 }

/-- All three enables. -/
def allOn : Enables := ⟨true, true, true⟩

/-- S_EN. -/
def sEn : Hardware := { sConf with ctrla := allOn, eff := allOn }

/-- The state K1 and S1 start their SYNC steps from: S_CONF after `0x100:00000016`. -/
def sRising : Hardware := { sConf with ctrla := allOn, pend := Pend.empty.addEnsync }

/-- What the next state of an outcome shows. -/
def look {α : Type} (o : Out) (f : State → α) : Option α :=
  match o with
  | .next t => some (f t)
  | _ => none

/-- The word a read returns. -/
def readBack (i : Instr) (h : Hardware) : Option Word := look (exec i (withHw h)) State.result

/-- The mark a transaction leaves. -/
def mark (i : Instr) (h : Hardware) : Option (Bool × Option Fault × Option Reason) :=
  look (exec i (withHw h)) fun t => (t.undef, t.cause.map FaultRecord.code, t.reason)

/-! ### Bus access and the CG's registers (A, G) -/

/-- A7: after K1 `0x100:00000017` is refused X5, not fault U2. -/
theorem test_a7_reserved_before_u2 : mark (.wrCtrla 0x17) sRising = some (false, none, some .x5) := by decide

/-- A8: `0x114:00000100` is accepted and changes nothing. -/
theorem test_a8_bit8_ignored :
    look (exec (.wrIntflag 0x100) (withHw Hardware.reset)) (fun t => (t.hw.txur0, t.refused)) =
      some (false, false) := by decide

/-- G1: the pending CG write. -/
theorem test_g1_gencfg_pending :
    (match gencfgRule exParams 0x00110101 Hardware.reset with
      | .accept h => some (h.gencfg, h.cgpend, h.cgbusy, h.gen[1], cgstatusImage h)
      | _ => none) = some (0x00110101, .gen 0x00110101, true, ⟨0, 1, false⟩, 0x80) := by decide

/-- G2: CGSYNC of a generator. -/
theorem test_g2_cgsync_gen :
    (let h := Hardware.cgSync { Hardware.reset with cgpend := .gen 0x00110101, cgbusy := true }
     (h.gen[1], h.gen[0], h.cnt[1], h.cgpend, h.cgbusy, h.ascClkOn exParams)) =
      (⟨0, 17, true⟩, ⟨0, 1, false⟩, 0, .none, false, false) := by decide

/-- G3: CGSYNC of a route. -/
theorem test_g3_cgsync_route :
    (let h := Hardware.cgSync { sClocked with chan := Hardware.reset.chan, cgpend := .route 0x4103, cgbusy := true }
     (h.chan[3], h.chan[4], h.ascClkOn exParams)) = (⟨1, true⟩, ⟨0, false⟩, true) := by decide

/-- G4: a CG write while the CG is busy. -/
theorem test_g4_busy_fault : mark (.wrClkroute 0x4103) { Hardware.reset with cgbusy := true } =
    some (true, some .u1, none) := by decide

/-- G5: busy comes before `DIV = 0`. -/
theorem test_g5_u1_before_x6 : mark (.wrGencfg 0x00000101) { Hardware.reset with cgbusy := true } =
    some (true, some .u1, none) := by decide

/-- G6: fields out of range. -/
theorem test_g6_out_of_range :
    [gencfgRule exParams 0x00000101 Hardware.reset, gencfgRule exParams 0x00110102 Hardware.reset,
      gencfgRule exParams 0x00110111 Hardware.reset, clkrouteRule exParams 0x00004203 Hardware.reset] =
    [.refuse .x6, .refuse .x6, .refuse .x6, .refuse .x6] := by decide

/-- G7 and G9: the clock of an active ASC. -/
theorem test_g7_g9_active_clock :
    (gencfgRule exParams 0x00100101 sEn, clkrouteRule exParams 0x00004103 sEn) =
      (.refuse .x8, .refuse .x8) := by decide

/-- G8 and G10: another generator, another consumer. -/
theorem test_g8_g10_other_clock :
    ((match gencfgRule exParams 0x00110100 sEn with
      | .accept h => some (h.cgSync.gen[0], h.cgSync.gen[1])
      | _ => none),
     (match clkrouteRule exParams 0x00004104 sEn with
      | .accept h => some (h.cgSync.chan[4], h.cgSync.chan[3])
      | _ => none)) = (some (⟨0, 17, true⟩, ⟨0, 17, true⟩), some (⟨1, true⟩, ⟨1, true⟩)) := by decide

/-- G11: a tick counts in generator 1, and makes no period yet. -/
theorem test_g11_tick_counts :
    (let s := (withHw { sEn with cnt := Hardware.reset.cnt.set 1 15 }).tickGen exParams 0 1
     (s.hw.cnt[1], s.hw.cnt[0], s.hw.t, s.pinlog)) = (16, 0, 0, []) := by decide

/-- G12, S13: the seventeenth tick makes one period; FS 0 and SD `any` at `t = 0`. -/
theorem test_g12_s13_first_period :
    (let s := (withHw { sEn with cnt := Hardware.reset.cnt.set 1 16 }).tickGen exParams 0 1
     (s.hw.cnt[1], s.hw.t, s.pinlog.map fun e => (e.fs, e.sd.any), s.txlog)) = (0, 1, [(false, true)], []) := by decide

/-- The hardware after CTRLA 0x16, 0x12, 0x16: the serializer runs on with an old word in its shift register, and only
the clock unit has stopped and started. -/
def restartedHw : Hardware :=
  Hardware.syncItem 0 { Hardware.syncItem 0 { sEn with
    sh := .val 1, t := 9, begun := true, ctrla := ⟨true, false, true⟩ } .cken0 with ctrla := allOn } .cken0

/-- R148's corner case: the frame restarts and the first period's bit is `any`. -/
theorem test_r148_first_period :
    (restartedHw.serRun, restartedHw.sh, restartedHw.t, restartedHw.clkRun) = (true, .val 1, 0, true) ∧
    ((withHw restartedHw).sckTick exParams).pinlog.map (fun e => e.sd.any) = [true] := by decide

/-- Where a period has begun before, `t = 0` carries bit 0 of the previous word (R152). -/
theorem test_r152_last_bit :
    ((withHw { sEn with sh := .val 1, begun := true }).sckTick exParams).pinlog = [⟨false, .val true⟩] := by decide

/-- R34: the frame's 64th period shows its values on the pins, `t` being 0 again. -/
theorem test_r34_last_period :
    (let s := (withHw { sEn with sh := .val 2, t := 63, begun := true, serBegun := true }).sckTick exParams
     (s.hw.t, s.pins)) = (0, ⟨.val true, .val 1, .val true⟩) := by decide

/-- A stream that has sent a 1, its last period's bit a 1, and then `ENABLE` and `SEREN0` cleared and taken effect. -/
def disabledHw : Hardware :=
  Hardware.syncItem 0 (Hardware.syncItem 0 { sEn with
    sh := .val 1, begun := true, serBegun := true, ctrla := Enables.none } .enable) .seren0

/-- The state in which that stream's last bit is the last of `pinlog`. -/
def afterStream (h : Hardware) : State := { withHw h with pinlog := [⟨true, .val true⟩] }

/-- R34, D29, I22: re-enabled with CTRLA 0x12, or with SYNC(SEREN0) before SYNC(CKEN0), SD is `any` again. -/
theorem test_r34_reenabled_sd_any :
    (let s := afterStream (Hardware.syncItem 0 (Hardware.syncItem 0 { Hardware.syncItem 0 disabledHw .cken0 with
       ctrla := ⟨true, false, true⟩ } .enable) .seren0)
     (s.hw.serRun, s.hw.clkRun, s.pins.sd.any) = (true, false, true)) ∧
    (let s := afterStream (Hardware.syncItem 0 (Hardware.syncItem 0 { Hardware.syncItem 0 disabledHw .cken0 with
       ctrla := allOn } .seren0) .enable)
     (s.hw.serRun, s.hw.clkRun, s.pins.sd.any) = (true, false, true)) := by decide

/-- I10: only the clock unit off, CTRLA 0x12 in the middle of a word: every pin is `any`, SD too. -/
theorem test_i10_word_cut_short :
    (let s := afterStream (Hardware.syncItem 0 { sEn with
       sh := .val 1, t := 9, begun := true, serBegun := true, ctrla := ⟨true, false, true⟩ } .cken0)
     (s.hw.serRun, s.hw.clkRun, s.hw.sh, s.pins.fs.any, s.pins.sck.any, s.pins.sd.any) =
       (true, false, .val 1, true, true, true)) := by decide

/-- D29: with the clock unit running on, a serializer that stops and starts within one period leaves SD `any` until the
next slot is loaded. -/
theorem test_r34_restarted_sd_any :
    (let h := Hardware.syncItem 0 { Hardware.syncItem 0 { sEn with
       sh := .val 1, t := 9, begun := true, serBegun := true, ctrla := ⟨true, true, false⟩ } .seren0 with
       ctrla := allOn } .seren0
     let s := afterStream h
     (s.hw.serRun, s.hw.clkRun, s.pins.fs, s.pins.sd.any, (s.sckTick exParams).pins.sd.any) =
       (true, true, .val true, true, true)) := by decide

/-- G15: rewriting a generator restarts its divider. -/
theorem test_g15_divider_restarts :
    (Hardware.cgSync { sClocked with cgpend := .gen 0x00110101, cgbusy := true
                                     cnt := Hardware.reset.cnt.set 1 9 }).cnt[1] = 0 := by decide

/-- T1 and G16: the divisor, and the word that holds it. -/
theorem test_t1_divisor : nearestDivisor 48000000 44100 = 17 ∧ gencfgRef 1 0 = 0x00110101 ∧
    clkrouteRef exParams 1 = 0x4103 := by decide

/-- R90: 544 source periods a slot, 1088 a frame, with the divisor 17. -/
theorem test_r90_counts : slotSourceTicks 17 = 544 ∧ frameSourceTicks 17 = 1088 := by decide

/-! ### Enable and configuration registers (K) -/

/-- K1: the enables are written, pending, and not yet effective. -/
theorem test_k1_enable_pending :
    look (exec (.wrCtrla 0x16) (withHw sConf)) (fun t =>
      (t.hw.ctrla, t.hw.eff, ctrlaImage t.hw, syncbusyImage t.hw, intflagImage t.hw)) =
    some (allOn, ⟨false, false, false⟩, 0x16, 0x16, 0) := by decide

/-- K2: a second write with no SYNC between. -/
theorem test_k2_fault_u2 : mark (.wrCtrla 0) sRising = some (true, some .u2, none) := by decide

/-- K4: a pending DATA0 does not count for U2. -/
theorem test_k4_data0_does_not_count :
    look (exec (.wrCtrla 0) (withHw { sEn with pend := Pend.empty.add .data0 })) (fun t =>
      (t.undef, t.hw.ctrla, syncbusyImage t.hw)) = some (false, ⟨false, false, false⟩, 0x116) := by decide

/-- K5: no reference configuration. -/
theorem test_k5_refused_x7 : mark (.wrCtrla 0x16) Hardware.reset = some (false, none, some .x7) := by decide

/-- K7: NBSLOTS = 0 is stored, and then CTRLA is refused. -/
theorem test_k7_odd_value_stored :
    (look (exec (.wrClkctrl0 0x83) (withHw sClocked)) (fun t => t.hw.clkctrl0),
      mark (.wrCtrla 0x16) { sClocked with clkctrl0 := 0x83, serctrl0 := 1 }) =
    (some 0x83, some (false, none, some .x7)) := by decide

/-- K8: U2 before X7. -/
theorem test_k8_u2_before_x7 :
    mark (.wrCtrla 0x16) { Hardware.reset with clkctrl0 := 0x87, pend := Pend.empty.add .clkctrl0 } =
      some (true, some .u2, none) := by decide

/-- K9 and K10: configuration while enabled, written or effective. -/
theorem test_k9_k10_fault_u3 :
    [mark (.wrClkctrl0 0x87) sEn, mark (.wrSerctrl0 0x01) sEn,
      mark (.wrClkctrl0 0x87) { sEn with ctrla := ⟨false, false, false⟩, pend := Pend.empty.addEnsync }] =
    [some (true, some .u3, none), some (true, some .u3, none), some (true, some .u3, none)] := by decide

/-- K12: the register's own item is pending. -/
theorem test_k12_fault_u4 :
    mark (.wrClkctrl0 0x87) { Hardware.reset with clkctrl0 := 0x87, pend := Pend.empty.add .clkctrl0 } =
      some (true, some .u4, none) := by decide

/-- K13: the other register's item is not in the way. -/
theorem test_k13_both_accepted :
    look (exec (.wrSerctrl0 0x01) (withHw { Hardware.reset with
      clkctrl0 := 0x87, pend := Pend.empty.add .clkctrl0 })) (fun t =>
      (t.undef, syncbusyImage t.hw, t.hw.clkctrl0, t.hw.serctrl0)) =
    some (false, 0xC00, 0x87, 0x01) := by decide

/-- K14: writing the same enables again restarts nothing. -/
theorem test_k14_no_restart :
    (let h : Hardware := { sEn with t := 5, wslot := 1, hold := some ⟨7, 0⟩, pend := Pend.empty.addEnsync }
     let k := ((h.syncItem 0 .enable).syncItem 0 .cken0).syncItem 0 .seren0
     (k.eff, k.t, k.wslot, k.hold, k.pend)) = (allOn, 5, 1, some ⟨7, 0⟩, Pend.empty) := by decide

/-! ### Flags and data (F) -/

/-- F2: ready, no underrun. -/
theorem test_f2_ready : readBack .rdIntflag sEn = some 0x100 := by decide

/-- F3: an underrun at `t = 1`. -/
theorem test_f3_underrun :
    (let s := (withHw { sEn with t := 1 }).sckTick exParams
     (intflagImage s.hw, s.txlog, s.hw.t)) = (0x1100, [.underrun 0], 2) := by decide

/-- F4, F5, F6: clearing TXUR0. -/
theorem test_f4_f5_f6_clear :
    [0x1000, 0, 0x100, 0x1100].map (fun w =>
      look (exec (.wrIntflag w) (withHw { sEn with txur0 := true })) (fun t => intflagImage t.hw)) =
    [some 0x100, some 0x1100, some 0x1100, some 0x100] := by decide

/-- F7: an accepted data word. -/
theorem test_f7_data_accepted :
    look (exec (.wrData0 0x00640000) (withHw sEn)) (fun t =>
      (t.hw.datareg, t.hw.datatag, t.hw.wslot, syncbusyImage t.hw, intflagImage t.hw)) =
    some (0x00640000, 0, 1, 0x100, 0) := by decide

/-- F8: the word crosses; not ready still. -/
theorem test_f8_sync_data0 :
    (let h := ({ sEn with datareg := 0x00640000, wslot := 1, pend := Pend.empty.add .data0 } : Hardware).syncItem
       0 .data0
     (h.hold, syncbusyImage h, intflagImage h)) = (some ⟨0x00640000, 0⟩, 0, 0) := by decide

/-- F9 and F10: not ready. -/
theorem test_f9_f10_fault_u5 :
    [mark (.wrData0 0x00640000) { sEn with pend := Pend.empty.add .data0 },
      mark (.wrData0 0x00640000) { sEn with hold := some ⟨0x00640000, 0⟩ },
      mark (.wrData0 5) Hardware.reset, mark (.wrData0 5) sConf] =
    [some (true, some .u5, none), some (true, some .u5, none), some (true, some .u5, none),
      some (true, some .u5, none)] := by decide

/-! ### Synchroniser, frame and serializer (S) -/

/-- S1: ENABLE, CKEN0, SEREN0 in that order. -/
theorem test_s1_rising :
    (let a := ({ sRising with t := 9, wslot := 1 } : Hardware).syncItem 0 .enable
     let b := a.syncItem 0 .cken0
     let c := b.syncItem 0 .seren0
     [(syncbusyImage a, a.eff, a.t, a.wslot), (syncbusyImage b, b.eff, b.t, b.wslot),
      (syncbusyImage c, c.eff, c.t, c.wslot)]) =
    [(0x14, ⟨true, false, false⟩, 9, 1), (0x10, ⟨true, true, false⟩, 0, 1), (0, allOn, 0, 0)] := by decide

/-- S2: SEREN0, CKEN0, ENABLE: both units start in the last step. -/
theorem test_s2_rising_last :
    (let a := sRising.syncItem 0 .seren0
     let b := a.syncItem 0 .cken0
     let c := b.syncItem 0 .enable
     [(syncbusyImage a, intflagImage a), (syncbusyImage b, intflagImage b), (syncbusyImage c, intflagImage c)]) =
    [(0x06, 0), (0x02, 0), (0, 0x100)] := by decide

/-- S3: the serializer stops and the pending word is cancelled. -/
theorem test_s3_cancel :
    (let h : Hardware := { sEn with ctrla := ⟨false, false, false⟩, pend := Pend.empty.addEnsync.add .data0 }
     let k := h.syncItem 0 .enable
     (syncbusyImage h, syncbusyImage k, k.hold, k.eff)) = (0x116, 0x014, none, ⟨false, true, true⟩) := by decide

/-- S6: position, slot and bit number of a period. -/
theorem test_s6_positions :
    ([0, 1, 31, 32, 33, 63] : List (Fin 64)).map (fun t =>
      (dataPosition t, dataSlot (dataPosition t), dataBit (dataPosition t))) =
    [(63, 1, 31), (0, 0, 0), (30, 0, 30), (31, 0, 31), (32, 1, 0), (62, 1, 30)] := by decide

/-- S7: FS. -/
theorem test_s7_fs :
    (([0, 31, 32, 63] : List (Fin 64)).map (fsLevel exParams),
      ([0, 31, 32, 63] : List (Fin 64)).map (fsLevel { exParams with fsSlot0Level := true })) =
    ([false, false, true, true], [true, true, false, false]) := by decide

/-- The last SD bit of a period that begins at `t` with this shift register. -/
def sdAt (sh : Word) (t : Fin 64) : Option (OrAny Bool) :=
  (((withHw { sEn with sh := .val sh, t := t }).sckPins exParams 0).sd)

/-- S8, S9, S10: which period carries bit 31, bit 0 of the left word and bit 16 of the right one. -/
theorem test_s8_s9_s10_bits :
    [sdAt 0x80000000 1, sdAt 0x80000000 2, sdAt 1 32, sdAt 1 31, sdAt 0x00010000 48, sdAt 0x00010000 47] =
    [some (.val true), some (.val false), some (.val true), some (.val false), some (.val true),
      some (.val false)] := by decide

/-- S11: at `t = 33` the held word is for slot 0: underrun, and the word stays. -/
theorem test_s11_wrong_slot :
    (let s := (withHw { sEn with t := 33, hold := some ⟨0xAAAA0000, 0⟩, wslot := 1 }).sckTick exParams
     (s.txlog, s.hw.hold, intflagImage s.hw)) = ([.underrun 1], some ⟨0xAAAA0000, 0⟩, 0x1000) := by decide

/-- S12: at `t = 1` it is loaded. -/
theorem test_s12_loaded :
    (let s := (withHw { sEn with t := 1, hold := some ⟨0xAAAA0000, 0⟩, wslot := 1, txur0 := true }).sckTick exParams
     (s.txlog, s.hw.hold, intflagImage s.hw)) = ([.loaded 0 0xAAAA0000], none, 0x1100) := by decide

/-! ### Driver and playback (T, Q, R62) -/

/-- Q1 to Q5: the writes of the operations, in order (selector and word). -/
def writes (ops : List HostOp) : List (BitVec 10 × Word) :=
  ops.filterMap fun op => match op with
    | .issue r => some (r.sel, r.wdata)
    | _ => none

theorem test_q1_q2_q3_writes :
    writes (bringUp exParams 1 17 0) =
      [(0x304, 0x00110101), (0x308, 0x4103), (0x100, 0), (0x104, 0x87), (0x120, 0x01), (0x100, 0x16)] := by decide

/-- T3 and Q5: two words, each after an underrun clear. -/
theorem test_q5_write : writes (driverWrite 1 2) = [(0x114, 0x1000), (0x130, 1), (0x114, 0x1000), (0x130, 2)] := by
  decide

/-- T4: the eight bytes after a 44-byte header. -/
theorem test_t4_decode :
    (decodeSamples (List.replicate 44 0x55 ++ [0x64, 0x00, 0x38, 0xFF, 0x2C, 0x01, 0x70, 0xFE])).map
      (List.map sampleValue) = some [100, -200, 300, -400] := by decide

/-- T5: widening. -/
theorem test_t5_widen :
    [0xFFFF, 1, 0, 100, 0xFF38, 0x8000, 0x7FFF].map widen =
      [0xFFFF0000, 0x00010000, 0, 0x00640000, 0xFF380000, 0x80000000, 0x7FFF0000] := by decide

/-- The state after a number of passes of the playback loop, each with an empty program, and the calls of all. -/
def passes : Nat → State → List HostOp × Option Player
  | 0, s => ([], s.player)
  | n + 1, s =>
    let t := State.playbackPass { s with host := [] }
    let r := passes n t
    (t.host ++ r.1, r.2)

/-- T6: the sequence wraps; an inactive trigger calls nothing; the loop is still there. -/
theorem test_t6_playback :
    passes 4 { State.reset with player := some ⟨[100, 0xFF38], 0, some [true, false, true, true]⟩ } =
      (driverWrite 0x00640000 0x00640000 ++ driverWrite 0xFF380000 0xFF380000 ++ driverWrite 0x00640000 0x00640000,
        some ⟨[100, 0xFF38], 3, some []⟩) := by decide

/-- R14, R175: after `enable`, an underrun, `disable` and zeros in both configuration registers the state is
transitional; the reset state with its CG configured is Uninitialized. -/
theorem test_r14_not_uninitialized :
    ((withHw { sClocked with txur0 := true, sh := .free 0 }).driverState, (withHw sClocked).driverState,
      (withHw sConf).driverState, (withHw sEn).driverState) =
    (none, some .uninitialized, some .configuredOrDisabled, some .enabled) := by decide

/-! ### The host's questions: the word placed is the instruction the very next step runs (log 13) -/

theorem test_fetch_wrClkctrl0 :
    look (step (State.reset.withFetchWord 48 (0x87 * 0x10000 + 0x104))) (fun t => (t.hw.clkctrl0, t.host, t.schedule)) =
      some (0x87, [], []) := by decide

/-- A table row gives 16 bits; the operand above them is 0. WR.DATA0 after reset is fault U5 (F10). -/
theorem test_fetch_wrData0 :
    look (step (State.reset.withFetchWord 16 0x130)) (fun t => (t.undef, t.cause)) =
      some (true, some ⟨.u5, 0x130, 0⟩) := by decide

/-! ### Witnesses: encoding -/

theorem witness_SelectorTableDecodes : (⟨0x00C, 4, 0⟩ : Request).sel ∉ ([0x000, 0x100, 0x004, 0x104, 0x014, 0x114,
    0x018, 0x020, 0x120, 0x130, 0x200, 0x204, 0x304, 0x208, 0x308] : List (BitVec 10)) := by decide

theorem witness_IllegalSelectorsRejected :
    ((⟨0x000, 2, 0⟩ : Request).size ≠ 4 ∧ (0x003 : BitVec 10).toNat % 4 ≠ 0) ∧
    ((0x0FC : BitVec 10).toNat % 4 = 0 ∧ (0x0FC : BitVec 10).getLsbD 9 = false ∧
      (0x0FC : BitVec 10).toNat % 256 ∉ [0x00, 0x04, 0x14, 0x18, 0x20, 0x30]) ∧
    ((0x20C : BitVec 10).toNat % 4 = 0 ∧ (0x20C : BitVec 10).getLsbD 9 = true ∧
      (0x20C : BitVec 10).toNat % 256 ∉ [0x00, 0x04, 0x08]) := by decide

/-- Parameters in range, and the addresses just outside the ASC block. -/
theorem witness_AddressMapSelectsRegisters :
    exParams.Valid ∧
    (¬(exParams.ascBase ≤ 0xFFF ∧ 0xFFF < exParams.ascBase + 0x100) ∧
      ¬(exParams.cgBase ≤ 0xFFF ∧ 0xFFF < exParams.cgBase + 0x100)) ∧
    (¬(exParams.ascBase ≤ 0x1100 ∧ 0x1100 < exParams.ascBase + 0x100) ∧
      ¬(exParams.cgBase ≤ 0x1100 ∧ 0x1100 < exParams.cgBase + 0x100)) := by
  refine ⟨?_, ?_, ?_⟩
  · unfold Config.Params.Valid
    decide
  · decide
  · decide

theorem witness_ResetReadsZero : Instr.rdCtrla.dir = .read := by decide

theorem witness_StepRunsFetchWord : decodeTableWord 48 (0x16 * 0x10000 + 0x100) = some (.wrCtrla 0x16) := by decide

/-! ### Witnesses: the HOST's turn -/

/-- A state with this hardware, this program and this schedule. -/
def withRun (h : Hardware) (ops : List HostOp) (turns : List Turn) : State :=
  { State.reset with hw := h, host := ops, schedule := turns }

theorem live_withHw (h : Hardware) : (withHw h).Live := ⟨rfl, rfl⟩

theorem live_withRun (h : Hardware) (ops : List HostOp) (turns : List Turn) : (withRun h ops turns).Live := ⟨rfl, rfl⟩

theorem witness_StepRunsHostTransaction :
    (withRun sEn [pollSync, rdOp .ctrla] [.host]).turn = .host ∧
    (withRun sEn [pollSync, rdOp .ctrla] [.host]).host = pollSync :: [rdOp .ctrla] ∧
    decode pollSync.request = .ok .rdSyncbusy := by decide

theorem witness_StepRefusesIllegalRequest :
    (withRun sEn [.issue ⟨0x118, 4, 0⟩] [.host]).Live ∧
    (withRun sEn [.issue ⟨0x118, 4, 0⟩] [.host]).turn = .host ∧ decode ⟨0x118, 4, 0⟩ = .error .x3 :=
  ⟨live_withRun .., by decide, by decide⟩

/-- The poll ends in the first of these states and goes on in the second. -/
theorem witness_PollRepeatsUntilWanted :
    (withRun sEn [pollSync] [.host]).Live ∧ (withRun sEn [pollSync] [.host]).turn = .host ∧
    Reg.syncbusy ≠ .data0 ∧ (withRun sEn [pollSync] [.host]).host = pollOp .syncbusy 0xFFFFFFFF 0 :: [] ∧
    look (step (withRun sEn [pollSync] [.host])) State.host = some [] ∧
    look (step (withRun sRising [pollSync] [.host])) State.host = some [pollSync] :=
  ⟨live_withRun .., by decide, by decide, by decide, by decide, by decide⟩

/-! ### Witnesses: reads and writes -/

/-- The premise `Live` of the statements about reads. -/
theorem witness_Live : State.reset.Live := ⟨rfl, rfl⟩

theorem witness_RdCgstatusReturnsBusy :
    (withHw { Hardware.reset with cgbusy := true, cgpend := .gen 0x00110101 }).Live ∧
    ({ Hardware.reset with cgbusy := true, cgpend := .gen 0x00110101 } : Hardware).cgpend ≠ .none :=
  ⟨live_withHw _, by decide⟩

/-- All enables, and none from reset. -/
theorem witness_WrCtrlaFollowsItsRule :
    ((withHw sConf).Live ∧ (0x16 : Word) &&& 0xFFFFFFE9 = 0 ∧ sConf.pend = Pend.empty ∧
      ((0x16 : Word) &&& 0x16 ≠ 0 → sConf.clkctrl0 = 0x87 ∧ sConf.serctrl0 = 0x01)) ∧
    ((0 : Word) &&& 0xFFFFFFE9 = 0 ∧ Hardware.reset.pend = Pend.empty ∧
      ((0 : Word) &&& 0x16 ≠ 0 → Hardware.reset.clkctrl0 = 0x87 ∧ Hardware.reset.serctrl0 = 0x01)) :=
  ⟨⟨live_withHw _, by decide, by decide, by decide⟩, by decide⟩

/-- U2 by the last item that counts, and X7. -/
theorem witness_WrCtrlaFollowsItsRule_stops :
    ((withHw sConf).Live ∧ (0x16 : Word) &&& 0xFFFFFFE9 = 0) ∧
    (Item.serctrl0 ≠ .data0 ∧ (Pend.empty.add .serctrl0).has .serctrl0 = true) ∧
    ((∀ i, i ≠ .data0 → (Pend.empty.add .data0).has i = false) ∧ (0x16 : Word) &&& 0x16 ≠ 0 ∧
      ¬(sClocked.clkctrl0 = 0x87 ∧ sClocked.serctrl0 = 0x01)) :=
  ⟨⟨live_withHw _, by decide⟩, by decide, by intro i; cases i <;> decide, by decide, by decide⟩

/-- Each register's write with the other one's item pending. -/
theorem witness_WrConfigFollowsItsRule :
    (withHw sClocked).Live ∧ sClocked.ctrla = ⟨false, false, false⟩ ∧ sClocked.eff = ⟨false, false, false⟩ ∧
    sClocked.pend.enable = false ∧ sClocked.pend.cken0 = false ∧ sClocked.pend.seren0 = false ∧
    ((0x87 : Word) &&& 0xFFFEEE60 = 0 ∧ (Pend.empty.add .serctrl0).clkctrl0 = false) ∧
    ((0x01 : Word) &&& 0xFCFF085C = 0 ∧ (Pend.empty.add .clkctrl0).serctrl0 = false) :=
  ⟨live_withHw _, by decide⟩

/-- U3 by each of its grounds alone, and U4. -/
theorem witness_WrConfigFollowsItsRule_faults :
    (withHw sEn).Live ∧ (0x87 : Word) &&& 0xFFFEEE60 = 0 ∧ (0x01 : Word) &&& 0xFCFF085C = 0 ∧
    (sRising.ctrla ≠ ⟨false, false, false⟩ ∧ ({ sEn with ctrla := ⟨false, false, false⟩ } : Hardware).eff ≠
      ⟨false, false, false⟩ ∧ (Pend.empty.add .seren0).seren0 = true) ∧
    ¬(sConf.ctrla ≠ ⟨false, false, false⟩ ∨ sConf.eff ≠ ⟨false, false, false⟩ ∨ sConf.pend.enable = true ∨
      sConf.pend.cken0 = true ∨ sConf.pend.seren0 = true) ∧
    (Pend.empty.add .clkctrl0).clkctrl0 = true ∧ (Pend.empty.add .serctrl0).serctrl0 = true :=
  ⟨live_withHw _, by decide⟩

theorem witness_WrIntflagClearsUnderrun :
    (withHw { sEn with txur0 := true }).Live ∧ (0x1100 : Word) &&& 0xFFFFEEFF = 0 :=
  ⟨live_withHw _, by decide⟩

/-- Ready, with either slot active; and not ready, for each reason. -/
theorem witness_WrData0AcceptsWhenReady :
    (withHw sEn).Live ∧
    (sEn.eff.enable = true ∧ sEn.eff.seren0 = true ∧ sEn.hold = none ∧ sEn.pend.data0 = false ∧ sEn.wslot = 0 ∧
      ({ sEn with wslot := 1 } : Hardware).wslot = 1) ∧
    (sConf.txrdy0 = false ∧ ({ sEn with hold := some ⟨0, 0⟩ } : Hardware).txrdy0 = false ∧
      ({ sEn with pend := Pend.empty.add .data0 } : Hardware).txrdy0 = false) :=
  ⟨live_withHw _, by decide⟩

theorem params_zero_lt : (0 : BitVec 4).toNat < Config.params.nGen ∧ (0 : BitVec 4).toNat < Config.params.nSrc :=
  ⟨Config.nGen_pos, Config.nSrc_pos⟩

/-- Generator 0 from source 0 with the largest divisor, the ASC not active; then for an active ASC that has no
clock, and for one that another generator feeds. -/
theorem witness_WrGencfgFollowsItsRule :
    (withHw sClocked).Live ∧ (0xFFFF0100 : Word) &&& 0x0000FE00 = 0 ∧ sClocked.cgbusy = false ∧
    ((0xFFFF0100 : Word).extractLsb' 0 4).toNat < Config.params.nGen ∧
    ((0xFFFF0100 : Word).extractLsb' 4 4).toNat < Config.params.nSrc ∧ (0xFFFF0100 : Word).extractLsb' 16 16 ≠ 0 ∧
    (sClocked.ctrla = ⟨false, false, false⟩ ∧ sClocked.eff = ⟨false, false, false⟩) ∧
    Hardware.reset.chan[Config.params.ascCid.toFin].clken = false ∧
    ({ sEn with chan := Vector.replicate 64 ⟨1, true⟩ } : Hardware).chan[Config.params.ascCid.toFin].gen ≠
      (0xFFFF0100 : Word).extractLsb' 0 4 := by
  refine ⟨live_withHw _, by decide, by decide, params_zero_lt.1, params_zero_lt.2, by decide, by decide, ?_, ?_⟩
  · simp [Hardware.reset]
  · simp

/-- The ASC's route while it is not active; and another consumer's while it is. -/
theorem witness_WrClkrouteFollowsItsRule :
    (withHw sClocked).Live ∧ (0x4000 : Word) &&& 0xFFFFB0C0 = 0 ∧ sClocked.cgbusy = false ∧
    ((0x4000 : Word).extractLsb' 8 4).toNat < Config.params.nGen ∧
    (sClocked.ctrla = ⟨false, false, false⟩ ∧ sClocked.eff = ⟨false, false, false⟩) ∧
    ((0x4000 : Word).extractLsb' 0 6 ≠ Config.params.ascCid ∨
      (0x4001 : Word).extractLsb' 0 6 ≠ Config.params.ascCid) := by
  refine ⟨live_withHw _, by decide, by decide, params_zero_lt.1, by decide, ?_⟩
  rw [show (0x4000 : Word).extractLsb' 0 6 = 0 by decide, show (0x4001 : Word).extractLsb' 0 6 = 1 by decide]
  by_cases h : (0 : BitVec 6) = Config.params.ascCid
  · right
    rw [← h]
    decide
  · exact .inl h

/-- Hardware with generator 0 on and every consumer routed to it, so that the ASC has a clock whatever ASC_CID is. -/
def clockedHw : Hardware :=
  { Hardware.reset with gen := Hardware.reset.gen.set 0 ⟨0, 17, true⟩, chan := Vector.replicate 64 ⟨0, true⟩ }

/-- Enabled, with that clock. -/
def runningHw : Hardware := { clockedHw with ctrla := allOn, eff := allOn, clkctrl0 := 0x87, serctrl0 := 0x01 }

/-- Configured, with that clock. -/
def configuredHw : Hardware := { clockedHw with clkctrl0 := 0x87, serctrl0 := 0x01 }

/-- U1 by a busy CG; X6 by `DIV = 0`; X8 for generator 0 and for the ASC's own route of an active ASC. -/
theorem witness_WrClockFollowsItsRule_stops :
    (withHw runningHw).Live ∧ ((0x00000101 : Word) &&& 0x0000FE00 = 0 ∧ (0x00000101 : Word).extractLsb' 16 16 = 0) ∧
    ({ runningHw with cgbusy := true } : Hardware).cgbusy = true ∧ runningHw.cgbusy = false ∧
    ((0x00110100 : Word) &&& 0x0000FE00 = 0 ∧
      ¬(Config.params.nGen ≤ ((0x00110100 : Word).extractLsb' 0 4).toNat ∨
        Config.params.nSrc ≤ ((0x00110100 : Word).extractLsb' 4 4).toNat ∨
        (0x00110100 : Word).extractLsb' 16 16 = 0)) ∧
    runningHw.ctrla ≠ ⟨false, false, false⟩ ∧ runningHw.chan[Config.params.ascCid.toFin].clken = true ∧
    runningHw.chan[Config.params.ascCid.toFin].gen = (0x00110100 : Word).extractLsb' 0 4 ∧
    (clkrouteWord Config.params.ascCid 0 true &&& 0xFFFFB0C0 = 0 ∧
      ¬Config.params.nGen ≤ ((clkrouteWord Config.params.ascCid 0 true).extractLsb' 8 4).toNat ∧
      (clkrouteWord Config.params.ascCid 0 true).extractLsb' 0 6 = Config.params.ascCid) := by
  refine ⟨live_withHw _, by decide, rfl, rfl, ⟨by decide, ?_⟩, by decide, ?_, ?_, clkrouteWord_reserved .., ?_, ?_⟩
  · have h1 := params_zero_lt.1
    have h2 := params_zero_lt.2
    have e1 : (0x00110100 : Word).extractLsb' 0 4 = 0 := by decide
    have e2 : (0x00110100 : Word).extractLsb' 4 4 = 0 := by decide
    rw [e1, e2]
    rintro (h | h | h)
    · exact absurd h1 (by omega)
    · exact absurd h2 (by omega)
    · exact absurd h (by decide)
  · simp [runningHw, clockedHw]
  · simp [runningHw, clockedHw]
  · have := clkrouteGen_word Config.params.ascCid 0 true
    unfold clkrouteGen at this
    rw [this]
    exact not_le.2 params_zero_lt.1
  · exact clkrouteCid_word ..

/-- X6 of CLKROUTE where the machine has fewer than 16 generators; with 16 no GEN field is out of range (R83). -/
theorem witness_WrClkrouteFollowsItsRule_outOfRange (h : Config.params.nGen < 16) :
    (0x0F00 : Word) &&& 0xFFFFB0C0 = 0 ∧ Config.params.nGen ≤ ((0x0F00 : Word).extractLsb' 8 4).toNat := by
  rw [show (0x0F00 : Word).extractLsb' 8 4 = 15 by decide]
  exact ⟨by decide, Nat.le_of_lt_succ h⟩

/-! ### Witnesses: refusals and faults -/

theorem witness_ReservedBitRefusedFirst : (withHw sRising).Live ∧ (Instr.wrCtrla 0x17).wellFormed = false :=
  ⟨live_withHw _, by decide⟩

theorem witness_AfterRefusalNothingRuns : (State.reset.refuse .x5).refused = true := rfl

theorem witness_AfterFaultEveryTransactionPasses :
    (State.reset.raiseFault .u5 0x130 5).refused = false ∧ (State.reset.raiseFault .u5 0x130 5).undef = true :=
  ⟨rfl, rfl⟩

/-- A transaction that faults, and one that does not. -/
theorem witness_FaultsAreTheTable :
    (withHw sEn).Live ∧ (Instr.wrClkctrl0 0x87).wellFormed = true ∧ faultOf (.wrClkctrl0 0x87) sEn = some .u3 ∧
    faultOf (.wrClkctrl0 0x87) sConf = none :=
  ⟨live_withHw _, by decide⟩

theorem witness_OnlyHostWritesFault :
    ∃ t, step (State.reset.withFetchWord 48 (5 * 0x10000 + 0x130)) = .next t ∧
      (State.reset.withFetchWord 48 (5 * 0x10000 + 0x130)).undef = false ∧ t.undef = true :=
  ⟨_, rfl, rfl, rfl⟩

/-- A step after a fault, and a step after a refusal. -/
theorem witness_MarksAreSticky :
    (∃ t, step { State.reset.raiseFault .u5 0x130 5 with schedule := [.cgSync] } = .next t ∧
      (State.reset.raiseFault .u5 0x130 5).undef = true) ∧
    ∃ t, step { State.reset.refuse .x5 with schedule := [.cgSync] } = .next t ∧
      (State.reset.refuse .x5).refused = true :=
  ⟨⟨_, rfl, rfl⟩, _, rfl, rfl⟩

/-! ### Witnesses: the whole machine -/

/-- The step that changes CLKCTRL0. -/
theorem witness_ConfigChangesOnlyByItsWrites :
    ∃ t, step (State.reset.withFetchWord 48 (0x87 * 0x10000 + 0x104)) = .next t ∧ t.undef = false ∧
      t.hw.clkctrl0 ≠ State.reset.hw.clkctrl0 :=
  ⟨_, rfl, rfl, by decide⟩

theorem witness_ReadsHaveNoSideEffect :
    ∃ t, step (State.reset.withFetchWord 16 0x018) = .next t ∧ (State.reset.withFetchWord 16 0x018).undef = false ∧
      (State.reset.withFetchWord 16 0x018).nextInstr = some .rdSyncbusy ∧ Instr.rdSyncbusy.dir = .read :=
  ⟨_, rfl, rfl, by decide, by decide⟩

theorem clockedHw_clock {h : Hardware} (hg : h.gen = clockedHw.gen) (hc : h.chan = clockedHw.chan) :
    h.ascClkOn Config.params = true := by
  have hr : h.ascChan Config.params = ⟨0, true⟩ := by
    simp only [Hardware.ascChan, hc, clockedHw, Fin.getElem_fin, Vector.getElem_replicate]
  simp only [Hardware.ascClkOn, hr, hg]
  exact show clockedHw.gen[(0 : Fin 16)].genen = true by decide

theorem clockedHw_tables {h : Hardware} (hg : h.gen = clockedHw.gen) (hc : h.chan = clockedHw.chan)
    (hp : h.cgpend = .none) : h.TablesInRange Config.params := by
  have key : ∀ g : Fin 16, clockedHw.gen[g].genen = true → g.val = 0 ∧ clockedHw.gen[g].src = 0 := by decide
  refine ⟨fun g hg' => ?_, fun c => ?_, fun v hv => absurd (hp.symm.trans hv) nofun,
    fun v hv => absurd (hp.symm.trans hv) nofun⟩
  · rw [hg] at hg' ⊢
    obtain ⟨h1, h2⟩ := key g hg'
    rw [h1, h2]
    exact params_zero_lt
  · simp only [hc, clockedHw, Fin.getElem_fin, Vector.getElem_replicate]
    exact params_zero_lt.1

/-- A state in which a word synchronises: running, DATA0 pending, tagged 0. -/
def sendingHw : Hardware := { runningHw with datareg := 7, datatag := 0, wslot := 1, pend := Pend.empty.add .data0 }

/-- The invariant of hardware that has `clockedHw`'s tables: what is left is decided by evaluation. -/
theorem inv_of_clocked {h : Hardware} (hg : h.gen = clockedHw.gen) (hc : h.chan = clockedHw.chan)
    (hp : h.cgpend = .none) (hcnt : ∀ g : Fin 16, h.cnt[g] < h.gen[g].div.toNat) (hb : h.cgbusy = false)
    (he : h.EffFollows) (hq : h.ConfigQuiet) (hr : h.RunsReference) (hd : h.DataPath) (hf : h.FrameBegun)
    (hw : h.WordBegun) : h.Inv Config.params where
  cgBusy := by simp [Hardware.CgBusyExact, hp, hb]
  dividers := ⟨hcnt, fun v hv => by rw [hp] at hv; cases hv⟩
  tables := clockedHw_tables hg hc hp
  eff := he
  config := hq
  reference := hr
  data := hd
  frame := hf
  word := hw

theorem configuredHw_inv : configuredHw.Inv Config.params :=
  inv_of_clocked rfl rfl rfl (by decide) rfl (by unfold Hardware.EffFollows; decide)
    (by unfold Hardware.ConfigQuiet; decide) (by unfold Hardware.RunsReference; decide)
    ⟨by decide, fun _ hx => by cases hx⟩ (by unfold Hardware.FrameBegun; decide)
    (by unfold Hardware.WordBegun; decide)

theorem sendingHw_inv : sendingHw.Inv Config.params :=
  inv_of_clocked rfl rfl rfl (by decide) rfl (by unfold Hardware.EffFollows; decide)
    (by unfold Hardware.ConfigQuiet; decide) (by unfold Hardware.RunsReference; decide)
    ⟨by decide, fun _ hx => by cases hx⟩ (by unfold Hardware.FrameBegun; decide)
    (by unfold Hardware.WordBegun; decide)

/-- With no serial clock period logged there is no bit to agree with. -/
theorem bitsLoaded_withRun (h : Hardware) (ops : List HostOp) (turns : List Turn) : (withRun h ops turns).BitsLoaded :=
  fun _ _ _ _ he => by cases he

/-- From a state with a word synchronising, the step that moves it. -/
theorem witness_EveryStepKeepsInvariant :
    ∃ t, (withRun sendingHw [] [.sync .data0]).Inv ∧ step (withRun sendingHw [] [.sync .data0]) = .next t :=
  ⟨_, ⟨by decide, by decide, fun _ => ⟨sendingHw_inv, bitsLoaded_withRun _ _ _⟩⟩, rfl⟩

/-- A source tick that loads the held word: generator 0 feeds the ASC, its phase wraps, and `t = 1` starts slot 0. -/
theorem witness_WordsGoOutInTheirSlot :
    ∃ t, step (withRun { runningHw with hold := some ⟨7, 0⟩, t := 1, cnt := Hardware.reset.cnt.set 0 16 } []
      [.srcTick 0]) = .next t :=
  ⟨State.agentTurn Config.params
    (withRun { runningHw with hold := some ⟨7, 0⟩, t := 1, cnt := Hardware.reset.cnt.set 0 16 } [] []) (.srcTick 0),
    rfl⟩

theorem witness_ReadyStaysUntilHostWrites :
    ∃ t, step (withRun runningHw [] [.srcTick 0]) = .next t ∧ (withRun runningHw [] [.srcTick 0]).turn ≠ .host ∧
      (withRun runningHw [] [.srcTick 0]).undef = false ∧ runningHw.pend.anyEnsync = false ∧ runningHw.txrdy0 = true :=
  ⟨State.agentTurn Config.params (withRun runningHw [] []) (.srcTick 0), rfl, by decide, rfl, by decide, by decide⟩

/-! ### Witnesses: CGSYNC and SYNC -/

/-- A generator's write (the last one) and a route's (the last one). -/
theorem witness_CgSyncAppliesPendingWrite :
    (withRun { Hardware.reset with cgpend := .gen 0x0011010F, cgbusy := true } [] [.cgSync]).turn = .cgSync ∧
    (withRun { Hardware.reset with cgpend := .gen 0x0011010F, cgbusy := true } [] [.cgSync]).undef = false ∧
    ({ Hardware.reset with cgpend := .gen 0x0011010F } : Hardware).cgpend = .gen 0x0011010F ∧
    ({ Hardware.reset with cgpend := .route 0x403F } : Hardware).cgpend = .route 0x403F := by decide

/-- Not pending; no clock; no CG write pending. -/
theorem witness_AgentsWaitUntilEnabled :
    ((withRun clockedHw [] [.sync .data0]).turn = .sync .data0 ∧ (withRun clockedHw [] [.sync .data0]).undef = false ∧
      clockedHw.pend.has .data0 = false) ∧
    Hardware.reset.ascClkOn Config.params = false ∧
    (withRun clockedHw [] [.cgSync]).turn = .cgSync ∧ clockedHw.cgpend = .none := by
  refine ⟨by decide, ?_, by decide, by decide⟩
  simp [Hardware.ascClkOn, Hardware.ascChan, Hardware.reset]

/-- ENABLE where it starts both units (from S2), CKEN0 and SEREN0 first, and ENABLE where it stops them. -/
theorem witness_SyncEnableTakesEffect :
    ({ configuredHw with ctrla := allOn, pend := Pend.empty.addEnsync } : Hardware).ascClkOn Config.params = true ∧
    (∀ i ∈ [Item.enable, .cken0, .seren0],
      (withRun { configuredHw with ctrla := allOn, pend := Pend.empty.addEnsync } [] [.sync i]).turn = .sync i ∧
      (withRun { configuredHw with ctrla := allOn, pend := Pend.empty.addEnsync } [] [.sync i]).undef = false ∧
      ({ configuredHw with ctrla := allOn, pend := Pend.empty.addEnsync } : Hardware).pend.has i = true) ∧
    ({ sendingHw with ctrla := Enables.none, pend := Pend.empty.addEnsync.add .data0 } : Hardware).ascClkOn
      Config.params = true ∧
    ({ sendingHw with ctrla := Enables.none, pend := Pend.empty.addEnsync.add .data0 } : Hardware).serRun = true :=
  ⟨clockedHw_clock rfl rfl, by decide, clockedHw_clock rfl rfl, by decide⟩

theorem witness_SyncDataAndConfigTakeEffect :
    (∀ i ∈ [Item.clkctrl0, .serctrl0, .data0],
      (withRun { sendingHw with pend := Pend.empty.add i } [] [.sync i]).turn = .sync i ∧
      (withRun { sendingHw with pend := Pend.empty.add i } [] [.sync i]).undef = false ∧
      (Pend.empty.add i).has i = true) ∧
    ∀ i, ({ sendingHw with pend := Pend.empty.add i } : Hardware).ascClkOn Config.params = true :=
  ⟨by decide, fun _ => clockedHw_clock rfl rfl⟩

/-! ### Witnesses: the divider, the frame and the serializer -/

/-- A generator that counts, one that wraps (`DIV = 1`, the least), and one that is off. -/
theorem witness_SourceTickAdvancesDividers :
    (clockedHw.gen[(0 : Fin 16)].genen = true ∧ clockedHw.gen[(0 : Fin 16)].src = 0 ∧ 0 < exParams.nGen ∧
      clockedHw.cnt[(0 : Fin 16)] + 1 ≠ clockedHw.gen[(0 : Fin 16)].div.toNat) ∧
    (let h : Hardware := { clockedHw with gen := clockedHw.gen.set 1 ⟨0, 1, true⟩ }
     h.gen[(1 : Fin 16)].genen = true ∧ 1 < exParams.nGen ∧
      h.cnt[(1 : Fin 16)] + 1 = h.gen[(1 : Fin 16)].div.toNat) ∧
    clockedHw.gen[(15 : Fin 16)].genen = false ∧
    (let h : Hardware := { runningHw with cnt := Hardware.reset.cnt.set 0 16 }
     h.clkRun = true ∧ (h.ascChan exParams).clken = true ∧ (h.ascChan exParams).gen.toFin = 0 ∧
      h.cnt[(0 : Fin 16)] + 1 = h.gen[(0 : Fin 16)].div.toNat) ∧
    clockedHw.clkRun = false := by decide

/-- The last phase before a wrap. -/
theorem witness_TicksMakeSerialPeriods :
    (let h : Hardware := { runningHw with cnt := Hardware.reset.cnt.set 0 16 }
     h.clkRun = true ∧ (h.ascChan exParams).clken = true ∧ (h.ascChan exParams).gen.toNat = (0 : Fin 16).val ∧
      (0 : Fin 16).val < exParams.nGen ∧ h.gen[(0 : Fin 16)].genen = true ∧ h.gen[(0 : Fin 16)].src = 0 ∧
      h.cnt[(0 : Fin 16)] < h.gen[(0 : Fin 16)].div.toNat) := by decide

/-- Not running; running between slots; each slot with its own word, with the other's, and with none. -/
theorem witness_SlotStartsLoadOrUnderrun :
    configuredHw.serRun = false ∧ (({ runningHw with t := 32 } : Hardware).t ≠ 1 ∧
      ({ runningHw with t := 32 } : Hardware).t ≠ 33) ∧
    (runningHw.serRun = true ∧ ({ runningHw with t := 1 } : Hardware).t = 1 ∧
      ({ runningHw with t := 33 } : Hardware).t = 33) ∧
    ({ runningHw with hold := some ⟨7, 0⟩ } : Hardware).hold = some ⟨7, 0⟩ ∧
    (∀ w, ({ runningHw with hold := some ⟨7, 0⟩ } : Hardware).hold ≠ some ⟨w, 1⟩) ∧
    ∀ w slot, runningHw.hold ≠ some ⟨w, slot⟩ := by
  refine ⟨by decide, by decide, by decide, rfl, fun w h => ?_, fun w slot h => by cases h⟩
  exact absurd (congrArg Held.slot (Option.some.inj h)) (show ¬(0 : Slot) = 1 by decide)

theorem witness_FrameIsTheTable :
    configuredHw.serRun = false ∧ runningHw.serRun = true ∧ runningHw.t = 0 ∧ runningHw.begun = false ∧
    ((withHw runningHw).sckTick exParams).hw.sh.any = true ∧
    ((withHw { runningHw with sh := .val 7, begun := true }).sckTick exParams).hw.sh = .val 7 ∧
    ((withHw { runningHw with sh := .val 7, begun := true }).sckTick exParams).pinlog.map (fun e => e.sd.any) =
      [false] := by decide

/-- Hardware in an underrun: both units run and the shift register is `any`. -/
def underrunHw : Hardware := { runningHw with txur0 := true, t := 5, begun := true, serBegun := true }

/-- After a fault; before the first period; units off; the serializer restarted; the 64th period of a frame, with both
units running; and only the clock unit off, in a stream. -/
theorem witness_PinsCarryTheRunningPeriod :
    (State.reset.raiseFault .u5 0x130 5).undef = true ∧ runningHw.begun = false ∧ configuredHw.clkRun = false ∧
    configuredHw.serRun = false ∧ ({ runningHw with begun := true } : Hardware).serBegun = false ∧
    (let s := (withHw { runningHw with sh := .val 2, t := 63, begun := true }).sckTick exParams
     s.undef = false ∧ s.hw.begun = true ∧ s.pinlog.getLast? = some ⟨true, .val true⟩ ∧ s.hw.clkRun = true ∧
      s.hw.serRun = true ∧ s.hw.serBegun = true ∧ s.hw.t = 0) ∧
    (let h : Hardware := { underrunHw with sh := .val 1, eff := ⟨true, false, true⟩ }
     h.clkRun = false ∧ h.begun = true ∧ h.serRun = true ∧ h.serBegun = true) :=
  ⟨rfl, by decide, by decide, by decide, by decide, by decide, by decide⟩

/-- An underrun slot: a state of the invariant whose shift register, logged bit and SD are `any`. -/
theorem witness_PinsUnloadedBit :
    (let s := { withHw underrunHw with pinlog := [⟨false, .free true⟩] }
     s.Inv ∧ s.hw.sh.any = true ∧ s.hw.serRun = true ∧ s.hw.serBegun = true) := by
  refine ⟨⟨by decide, by decide, fun _ => ⟨?_, fun _ _ _ e he => ?_⟩⟩, rfl, by decide, rfl⟩
  · exact inv_of_clocked rfl rfl rfl (by decide) rfl (by unfold Hardware.EffFollows; decide)
      (by unfold Hardware.ConfigQuiet; decide) (by unfold Hardware.RunsReference; decide)
      ⟨by decide, fun _ hx => by cases hx⟩ (by unfold Hardware.FrameBegun; decide) (by unfold Hardware.WordBegun; decide)
  · cases he
    rfl

theorem witness_SourceTurnIsOneTick :
    (withRun runningHw [] [.srcTick 0]).turn = .srcTick 0 ∧ (withRun runningHw [] [.srcTick 0]).undef = false ∧
    (0 : BitVec 4).toNat < Config.params.nSrc :=
  ⟨rfl, rfl, params_zero_lt.2⟩

/-! ### Witnesses: the driver -/

/-- P6: `init` without a clock. -/
theorem witness_PollHangsWithoutClock :
    ∃ u, (withRun { Hardware.reset with pend := Pend.empty.addEnsync } [pollSync] [.host, .sync .enable]).Live ∧
      Hardware.reset.cgpend = .none ∧
      ({ Hardware.reset with pend := Pend.empty.addEnsync } : Hardware).ascClkOn Config.params = false ∧
      Pend.empty.addEnsync.has .enable = true ∧
      core.run 1 (withRun { Hardware.reset with pend := Pend.empty.addEnsync } [pollSync] [.host, .sync .enable]) =
        .next u := by
  refine ⟨_, live_withRun .., rfl, ?_, rfl, rfl⟩
  simp [Hardware.ascClkOn, Hardware.ascChan, Hardware.reset]

/-- Q8: `write` from Configured. -/
theorem witness_WriteHangsWhileDisabled :
    ∃ u, (withRun configuredHw (driverWrite 1 2) [.host, .host]).Live ∧ configuredHw.pend.anyEnsync = false ∧
      configuredHw.eff.any = false ∧
      (withRun configuredHw (driverWrite 1 2) [.host, .host]).host =
        .awaitReady :: (driverWrite 1 2).tail ∧
      core.run 2 (withRun configuredHw (driverWrite 1 2) [.host, .host]) = .next u :=
  ⟨_, live_withRun .., by decide, by decide, rfl, rfl⟩

/-- Ready: four turns of the HOST accept the word. Not ready: it is still in the loop. -/
theorem witness_WriteNeverFaults :
    (∃ u, (withRun runningHw (writeWord 7 ++ []) [.host, .host, .host, .host]).Live ∧
      runningHw.pend.anyEnsync = false ∧
      core.run 4 (withRun runningHw (writeWord 7 ++ []) [.host, .host, .host, .host]) = .next u ∧
      u.host = [] ∧ u.hw.datareg = 7) ∧
    ∃ u, core.run 2 (withRun sendingHw (writeWord 7 ++ []) [.host, .host]) = .next u ∧ u.host = writeWord 7 ++ [] :=
  ⟨⟨_, live_withRun .., by decide, rfl, rfl, rfl⟩, _, rfl, rfl⟩

/-- Q1 from reset, generator 0, the largest divisor. -/
theorem witness_ConfigureClocksTheAsc :
    (withRun Hardware.reset (driverConfigure Config.params 0 0xFFFF 0 true ++ [])
      [.host, .host, .cgSync, .host, .host, .cgSync, .host]).Live ∧
    Hardware.reset.cgbusy = false ∧ Hardware.reset.ascActive = false ∧
    (0 : BitVec 4).toNat < Config.params.nGen ∧ (0 : BitVec 4).toNat < Config.params.nSrc ∧
    (0xFFFF : BitVec 16) ≠ 0 :=
  ⟨live_withRun .., rfl, by decide, params_zero_lt.1, params_zero_lt.2, by decide⟩

/-- Configured, about to run `init` again, the items completing in an order of P1. -/
def initialising : State :=
  withRun configuredHw driverInit
    [.host, .sync .seren0, .sync .enable, .sync .cken0, .host, .host, .host, .sync .serctrl0, .sync .clkctrl0, .host]

theorem witness_InitReachesConfiguredInAnyOrder :
    initialising.Live ∧ initialising.Inv ∧ initialising.hw.quiet = true ∧
    initialising.hw.ascClkOn Config.params = true ∧ [Item.seren0, .enable, .cken0].Perm [.enable, .cken0, .seren0] ∧
    [Item.serctrl0, .clkctrl0].Perm [.clkctrl0, .serctrl0] ∧ initialising.host = driverInit ++ [] ∧
    initialising.schedule = [.host, .sync .seren0, .sync .enable, .sync .cken0, .host, .host, .host, .sync .serctrl0,
      .sync .clkctrl0, .host] ++ [] := by
  have hc : initialising.hw.ascClkOn Config.params = true := clockedHw_clock rfl rfl
  exact ⟨⟨rfl, rfl⟩, ⟨by decide, by decide, fun _ => ⟨configuredHw_inv, bitsLoaded_withRun _ _ _⟩⟩, by decide, hc, by decide, by decide, rfl, rfl⟩

/-- Configured, about to enable, the items completing in S2's order. -/
def enabling : State := withRun configuredHw driverEnable [.host, .sync .seren0, .sync .cken0, .sync .enable, .host]

theorem witness_EnableReachesEnabledInAnyOrder :
    enabling.Live ∧ enabling.Inv ∧ enabling.driverState = some .configuredOrDisabled ∧
    enabling.hw.ascClkOn Config.params = true ∧ [Item.seren0, .cken0, .enable].Perm [.enable, .cken0, .seren0] ∧
    enabling.host = driverEnable ++ [] ∧
    enabling.schedule = [.host, .sync .seren0, .sync .cken0, .sync .enable, .host] ++ [] := by
  have hc : enabling.hw.ascClkOn Config.params = true := clockedHw_clock rfl rfl
  exact ⟨⟨rfl, rfl⟩, ⟨by decide, by decide, fun _ => ⟨configuredHw_inv, bitsLoaded_withRun _ _ _⟩⟩, by decide, hc, by decide, rfl, rfl⟩

/-- Enabled with a word still synchronising, about to disable, the items completing in P7's order. -/
def disabling : State := withRun sendingHw driverDisable [.host, .sync .enable, .sync .cken0, .sync .seren0, .host]

theorem witness_DisableDropsTheWordInAnyOrder :
    disabling.Live ∧ disabling.Inv ∧ disabling.driverState = some .enabled ∧
    disabling.hw.ascClkOn Config.params = true ∧ [Item.enable, .cken0, .seren0].Perm [.enable, .cken0, .seren0] ∧
    disabling.host = driverDisable ++ [] ∧
    disabling.schedule = [.host, .sync .enable, .sync .cken0, .sync .seren0, .host] ++ [] := by
  have hc : disabling.hw.ascClkOn Config.params = true := clockedHw_clock rfl rfl
  exact ⟨⟨rfl, rfl⟩, ⟨by decide, by decide, fun _ => ⟨sendingHw_inv, bitsLoaded_withRun _ _ _⟩⟩, by decide, hc, by decide, rfl, rfl⟩

/-! ### Witnesses: the software -/

theorem witness_DecodedSamplesAreTheOriginals : (List.replicate 44 (0x55 : Byte)).length = 44 := by decide

/-- One byte short of a header, and one byte after it. -/
theorem witness_MalformedBufferRefused :
    (List.replicate 43 (0 : Byte)).length < 44 ∧ ((List.replicate 45 (0 : Byte)).length - 44) % 2 = 1 := by decide

/-- The loop with its program run out. -/
def playing (trigger : Option (List Bool)) : State :=
  { withRun runningHw [] [.host] with player := some ⟨[100, 0xFF38], 2, trigger⟩ }

/-- No trigger, an active one and an inactive one, where the sequence restarts. -/
theorem witness_PlaybackPassWritesTheNextSample :
    (∀ trigger ∈ [none, some [true], some [false]], (playing trigger).turn = .host ∧ (playing trigger).host = [] ∧
      (playing trigger).player = some ⟨[100, 0xFF38], 2, trigger⟩) ∧
    ([100, 0xFF38] : List (BitVec 16))[2 % 2]? = some 100 := by decide

theorem witness_PlaybackNeverEnds :
    ∃ t, step (playing none) = .next t ∧ (playing none).player = some ⟨[100, 0xFF38], 2, none⟩ :=
  ⟨_, rfl, rfl⟩

/-- From reset, generator 0. -/
theorem witness_ReferenceBringUpClocksTheAsc :
    (withRun Hardware.reset (bringUpRef Config.params 0)
      ([.host, .host, .cgSync, .host, .host, .cgSync, .host] ++ [])).Live ∧
    Hardware.reset.cgbusy = false ∧ Hardware.reset.ascActive = false ∧ (0 : BitVec 4).toNat < Config.params.nGen :=
  ⟨live_withRun .., rfl, by decide, params_zero_lt.1⟩

end Sys2Proof.Tests
end

/-! Proofs of the encoding family: decoding is inverted once, so that the transactions of R58 are the only ones, and
the assembled CG words are read as sums of their fields (spec/30_encoding.md R58, R62). -/

namespace Sys2Proof

open Machine

/-- A transaction is decoded only from the selector of its register, in the direction in which that register has it. -/
theorem decode_ok {r : Request} {i : Instr} (h : decode r = .ok i) :
    ∃ reg, r.sel = selector reg .read ∧ readInstr reg = some i ∨
      r.sel = selector reg .write ∧ writeInstr r.wdata reg = some i := by
  unfold decode at h
  split at h
  · cases h
  · split at h
    · cases h
    next reg hreg =>
      have hsel := selector_of_regAt hreg
      refine ⟨reg, ?_⟩
      split at h
      next hdir =>
        rw [hdir] at hsel
        cases hw : writeInstr r.wdata reg <;> simp_all
      next hdir =>
        rw [hdir] at hsel
        cases hw : readInstr reg <;> simp_all

/-- The selectors of R58's table, in its order. -/
def admittedSelectors : List (BitVec 10) :=
  [0x000, 0x100, 0x004, 0x104, 0x014, 0x114, 0x018, 0x020, 0x120, 0x130, 0x200, 0x204, 0x304, 0x208, 0x308]

theorem selector_read_admitted {reg : Reg} {i : Instr} (h : readInstr reg = some i) :
    selector reg .read ∈ admittedSelectors := by
  cases reg
  case data0 => cases h
  all_goals decide

theorem selector_write_admitted {w : Word} {reg : Reg} {i : Instr} (h : writeInstr w reg = some i) :
    selector reg .write ∈ admittedSelectors := by
  cases reg
  case syncbusy | cgstatus => cases h
  all_goals decide

theorem sel_admitted_of_decode_ok {r : Request} {i : Instr} (h : decode r = .ok i) : r.sel ∈ admittedSelectors := by
  obtain ⟨reg, ⟨hsel, hi⟩ | ⟨hsel, hi⟩⟩ := decode_ok h
  · exact hsel ▸ selector_read_admitted hi
  · exact hsel ▸ selector_write_admitted hi

/-- Settles O1: the rows of the table are reads and writes of the registers, and a request that decodes has one of
their selectors. -/
theorem selectorTableDecodes : Obligations.SelectorTableDecodes := by
  refine ⟨fun w => ⟨decode_read .ctrla w, decode_write .ctrla w, decode_read .clkctrl0 w, decode_write .clkctrl0 w,
    decode_read .intflag w, decode_write .intflag w, decode_read .syncbusy w, decode_read .serctrl0 w,
    decode_write .serctrl0 w, decode_write .data0 w, decode_read .cgstatus w, decode_read .gencfg w,
    decode_write .gencfg w, decode_read .clkroute w, decode_write .clkroute w⟩, fun r hr => ?_⟩
  cases h : decode r with
  | error x => exact ⟨x, rfl⟩
  | ok i => exact absurd (sel_admitted_of_decode_ok h) hr

/-! ### The assembled CG words as numbers -/

/-- Fields that do not overlap add up. -/
theorem Word.shiftLeft_or_toNat {a b : Word} {n x y : Nat} (ha : a.toNat = x) (hb : b.toNat = y)
    (hx : x * 2 ^ n < 2 ^ 32) (hy : y < 2 ^ n) : (a <<< n ||| b).toNat = x * 2 ^ n + y := by
  rw [BitVec.toNat_or, BitVec.toNat_shiftLeft, ha, hb, Nat.shiftLeft_eq, Nat.mod_eq_of_lt hx, ← Nat.shiftLeft_eq,
    Nat.shiftLeft_add_eq_or_of_lt hy]

theorem Word.ofFlag_toNat (b : Bool) : (Word.ofFlag b).toNat = b.toNat := by
  cases b <;> rfl

theorem Machine.gencfgWord_toNat (id src : BitVec 4) (div : BitVec 16) (en : Bool) :
    (gencfgWord id src div en).toNat = div.toNat * 2 ^ 16 + en.toNat * 2 ^ 8 + src.toNat * 2 ^ 4 + id.toNat := by
  have hid := id.isLt
  have hsrc := src.isLt
  have hdiv := div.isLt
  have hen := en.toNat_le
  have low := Word.shiftLeft_or_toNat (n := 4) (a := src.setWidth 32) (b := id.setWidth 32)
    (BitVec.toNat_setWidth_of_le (by decide)) (BitVec.toNat_setWidth_of_le (by decide)) (by omega) (by omega)
  have mid := Word.shiftLeft_or_toNat (n := 8) (Word.ofFlag_toNat en) low (by omega) (by omega)
  have all := Word.shiftLeft_or_toNat (n := 16) (a := div.setWidth 32)
    (BitVec.toNat_setWidth_of_le (by decide)) mid (by omega) (by omega)
  rw [gencfgWord, BitVec.or_assoc, BitVec.or_assoc, all]
  omega

theorem Machine.clkrouteWord_toNat (cid : BitVec 6) (gen : BitVec 4) (en : Bool) :
    (clkrouteWord cid gen en).toNat = en.toNat * 2 ^ 14 + gen.toNat * 2 ^ 8 + cid.toNat := by
  have hcid := cid.isLt
  have hgen := gen.isLt
  have hen := en.toNat_le
  have low := Word.shiftLeft_or_toNat (n := 8) (a := gen.setWidth 32) (b := cid.setWidth 32)
    (BitVec.toNat_setWidth_of_le (by decide)) (BitVec.toNat_setWidth_of_le (by decide)) (by omega) (by omega)
  have all := Word.shiftLeft_or_toNat (n := 14) (Word.ofFlag_toNat en) low (by omega) (by omega)
  rw [clkrouteWord, BitVec.or_assoc, all]
  omega

/-- Settles O59: the named constants are their values, and the assembled words are the sums of their fields. -/
theorem referenceConstants : Obligations.ReferenceConstants := by
  refine ⟨rfl, rfl, rfl, rfl, rfl, rfl, rfl, rfl, rfl, fun g s => ?_, fun p g => ?_⟩
  · simp [gencfgRef, gencfgWord_toNat, referenceDivisor]
  · simp [clkrouteRef, clkrouteWord_toNat]

end Sys2Proof

/-! Proofs of the clock generator's family: a read is the read primitive in a live state, and CGSYNC changes the tables
and the busy flag but no written word (spec/41_clock_generator.md R80, R82, R84, R85). -/

namespace Sys2Proof.Machine

/-- The image of CGSTATUS is one of two values (R80). -/
theorem cgstatusImage_eq (h : Hardware) : cgstatusImage h = if h.cgbusy then 0x80 else 0 := by
  unfold cgstatusImage Word.ofFlag
  cases h.cgbusy <;> rfl

@[simp] theorem Hardware.cgSync_gencfg (h : Hardware) : h.cgSync.gencfg = h.gencfg := by
  unfold Hardware.cgSync Hardware.applyCgPend
  cases h.cgpend <;> rfl

@[simp] theorem Hardware.cgSync_clkroute (h : Hardware) : h.cgSync.clkroute = h.clkroute := by
  unfold Hardware.cgSync Hardware.applyCgPend
  cases h.cgpend <;> rfl

@[simp] theorem Hardware.cgSync_cgbusy (h : Hardware) : h.cgSync.cgbusy = false := rfl

section
variable {s : State}

/-- CGSYNC's turn takes its step where a CG write is pending. -/
theorem agentTurn_cgSync_of_pending (p : Config.Params) (hl : s.Live) (hp : s.hw.cgpend ≠ .none) :
    s.agentTurn p .cgSync = s.setHw s.hw.cgSync := by
  simp [State.agentTurn, State.enabled, State.agentStep, hl.1, hp]

/-- CGSYNC's turn passes where no CG write is pending. -/
theorem agentTurn_cgSync_of_idle (p : Config.Params) (hl : s.Live) (hp : s.hw.cgpend = .none) :
    s.agentTurn p .cgSync = s := by
  simp [State.agentTurn, State.enabled, hl.1, hp]

/-- In a live state CGSYNC's turn leaves both written words of the CG (R82, R84, R85). -/
theorem agentTurn_cgSync_written (p : Config.Params) (hl : s.Live) :
    (s.agentTurn p .cgSync).hw.gencfg = s.hw.gencfg ∧ (s.agentTurn p .cgSync).hw.clkroute = s.hw.clkroute := by
  by_cases hp : s.hw.cgpend = .none
  · simp [agentTurn_cgSync_of_idle p hl hp]
  · simp [agentTurn_cgSync_of_pending p hl hp]

/-- RD.CGSTATUS in a live state, with the result as R80 gives it. -/
theorem exec_rdCgstatus_live (hl : s.Live) :
    exec .rdCgstatus s = .next { s with
      buslog := s.buslog ++ [⟨0x200, if s.hw.cgbusy then 0x80 else 0⟩]
      result := if s.hw.cgbusy then 0x80 else 0 } := by
  rw [← cgstatusImage_eq]
  exact busRead_live hl

end

/-- Settles O16: both reads are the read primitive with the written word as the image, and CGSYNC's turn leaves both
words whether it takes its step or passes. -/
theorem rdClockRegistersReturnWritten : Obligations.RdClockRegistersReturnWritten :=
  fun _ hl => ⟨busRead_live hl, busRead_live hl, agentTurn_cgSync_written Config.params hl⟩

/-- Settles O17: the read returns the busy flag's image, and CGSYNC's step clears that flag and leaves the state
live. -/
theorem rdCgstatusReturnsBusy : Obligations.RdCgstatusReturnsBusy := by
  refine fun s hl => ⟨exec_rdCgstatus_live hl, fun hp => ?_⟩
  rw [agentTurn_cgSync_of_pending Config.params hl hp]
  have hlive : (s.setHw s.hw.cgSync).Live := hl
  exact ⟨_, exec_rdCgstatus_live hlive, rfl⟩

end Sys2Proof.Machine

/-! Proofs of the control and configuration family's reads: each is the read primitive in a live state, with the
written value as its image, so that neither `eff` nor `pend` is asked (spec/42_control_config.md R101, R103, R105). -/

namespace Sys2Proof

/-- A flag moved to bit `n` of a word. -/
theorem Word.ofFlag_shiftLeft (b : Bool) (n : Nat) : Word.ofFlag b <<< n = if b then 1#32 <<< n else 0 := by
  cases b
  · exact BitVec.zero_shiftLeft n
  · rfl

end Sys2Proof

namespace Sys2Proof.Machine

/-- The image of CTRLA is made of the three written enables, each at its own bit (R101). -/
theorem ctrlaImage_eq (h : Hardware) :
    ctrlaImage h = (if h.ctrla.seren0 then 0x10 else 0) ||| (if h.ctrla.cken0 then 0x04 else 0)
      ||| (if h.ctrla.enable then 0x02 else 0) := by
  rw [ctrlaImage, Word.ofFlag_shiftLeft, Word.ofFlag_shiftLeft, Word.ofFlag_shiftLeft]
  rfl

/-- Settles O14: the read's image is that of the written enables, whatever is pending. -/
theorem rdCtrlaReturnsWritten : Obligations.RdCtrlaReturnsWritten := by
  intro s hl
  rw [← ctrlaImage_eq]
  exact busRead_live hl

/-- Settles O15: both reads are the read primitive with the written word as the image. -/
theorem rdConfigReturnsWritten : Obligations.RdConfigReturnsWritten :=
  fun _ hl => ⟨busRead_live hl, busRead_live hl⟩

end Sys2Proof.Machine

/-! Proofs of the data and flags family: RD.INTFLAG is the read primitive with the flags' image, WR.INTFLAG the write
primitive with a rule that accepts in every state (spec/43_data_flags.md R120, R121). -/

namespace Sys2Proof.Machine

/-- The image of INTFLAG is made of TXUR0 and of R20's condition for TXRDY0, each at its own bit (R120). -/
theorem intflagImage_eq (h : Hardware) :
    intflagImage h = (if h.txur0 then 0x1000 else 0) |||
      (if h.eff.enable = true ∧ h.eff.seren0 = true ∧ h.hold = none ∧ h.pend.data0 = false then 0x100 else 0) := by
  rw [intflagImage, Word.ofFlag_shiftLeft, Word.ofFlag_shiftLeft]
  simp only [txrdy0_iff]
  rfl

/-- Settles O19: the read primitive returns INTFLAG's image and changes no hardware. -/
theorem rdIntflagReturnsFlags : Obligations.RdIntflagReturnsFlags := by
  intro s hl
  rw [← intflagImage_eq]
  exact busRead_live hl

/-- The rule of WR.INTFLAG accepts every word; bit 12 alone decides what becomes of TXUR0 (R121). -/
theorem intflagRule_eq_ite (w : Word) (h : Hardware) :
    intflagRule w h = .accept { h with txur0 := if w.getLsbD 12 then false else h.txur0 } := by
  rw [intflagRule_eq, Bool.if_false_left, Bool.decide_eq_true, Bool.and_comm]
  rfl

/-- Settles O22: in a live state the write primitive logs the word and takes over what the rule accepts. -/
theorem wrIntflagClearsUnderrun : Obligations.WrIntflagClearsUnderrun := by
  intro s w hl hw
  calc exec (.wrIntflag w) s
    _ = .next ((s.logBus 0x114 w).apply 0x114 w (intflagRule w s.hw)) := busWrite_live hl hw
    _ = _ := by rw [intflagRule_eq_ite]; rfl

end Sys2Proof.Machine

/-! Proofs of the driver sequences family: widening is an append of 16 zero bits, so it multiplies the sample by 2 ^ 16
in the unsigned and in the signed reading alike (spec/45_driver_sequences.md R179). -/

namespace Sys2Proof.Machine

/-- The signed value of a sample and its 16 bits read as unsigned agree modulo 2 ^ 16 (R178). -/
theorem sampleValue_emod (x : BitVec 16) : sampleValue x % 65536 = x.toNat := by
  calc x.toInt % 65536
    _ = (x.toNat : Int).bmod (2 ^ 16) % (2 ^ 16 : Nat) := by rw [BitVec.toInt_eq_toNat_bmod]; rfl
    _ = (x.toNat : Int) % (2 ^ 16 : Nat) := Int.bmod_emod
    _ = x.toNat := by rw [← Int.natCast_emod, Nat.mod_eq_of_lt x.isLt]

/-- The unsigned value of a widened sample (R179). -/
theorem widen_toNat (x : BitVec 16) : (widen x).toNat = x.toNat * 65536 := by
  calc (widen x).toNat
    _ = x.toNat <<< 16 ||| 0 := BitVec.toNat_append x 0
    _ = x.toNat * 65536 := by rw [Nat.or_zero, Nat.shiftLeft_eq]

/-- The signed value of a widened sample: the append of zeros leaves the sign bit on top (R179). -/
theorem widen_toInt (x : BitVec 16) : (widen x).toInt = sampleValue x * 65536 := by
  calc (widen x).toInt
    _ = 2 ^ 16 * x.toInt := BitVec.toInt_append_zero
    _ = sampleValue x * 65536 := Int.mul_comm _ _

/-- Settles O55: the unsigned reading by the sample's residue modulo 2 ^ 16, the signed one by the append of zeros. -/
theorem wideningKeepsTheSign : Obligations.WideningKeepsTheSign := by
  refine fun x => ⟨?_, widen_toInt x⟩
  rw [sampleValue_emod, widen_toNat]
  exact Int.natCast_mul _ _

end Sys2Proof.Machine

/-! Proofs of the reset family: after RESET every image is 0, no generator is enabled and no serial clock period is
running, and what R221 lists follows from that (spec/70_reset_and_hazards.md R221). -/

namespace Sys2Proof.Machine

/-! ### Reads -/

/-- A transaction that reads has an image. -/
theorem exists_readImage_of_dir_read {i : Instr} (hd : i.dir = .read) :
    ∃ image, readImage i = some image ∧ ∀ s, exec i s = busRead i.reg image s := by
  obtain h | ⟨w, -, -, hw, -⟩ := exec_form i
  · exact h
  · simp [Instr.dir, hw] at hd

/-- After RESET every register's image is 0 (R221). -/
theorem readImage_reset {i : Instr} {image : Hardware → Word} (h : readImage i = some image) :
    image Hardware.reset = 0 := by
  cases i <;> cases h <;> rfl

/-- After RESET a read answers a next state with result 0 (R221). -/
theorem exec_read_reset {i : Instr} (hd : i.dir = .read) : ∃ t, exec i State.reset = .next t ∧ t.result = 0 := by
  obtain ⟨image, hi, he⟩ := exists_readImage_of_dir_read hd
  have hlive : State.reset.Live := ⟨rfl, rfl⟩
  rw [he, busRead_live hlive]
  exact ⟨_, rfl, readImage_reset hi⟩

/-! ### The agents -/

/-- With its channel off the ASC has no clock (R30). -/
theorem ascClkOn_of_clken_false {p : Config.Params} {h : Hardware} (hc : (h.ascChan p).clken = false) :
    h.ascClkOn p = false := by
  rw [Hardware.ascClkOn, hc, Bool.false_and]

theorem ascChan_reset (p : Config.Params) : Hardware.reset.ascChan p = { gen := 0, clken := false } :=
  Vector.getElem_replicate p.ascCid.toFin.isLt

theorem ascClkOn_reset (p : Config.Params) : Hardware.reset.ascClkOn p = false :=
  ascClkOn_of_clken_false (by rw [ascChan_reset])

/-- Without the ASC's clock no item synchronizes (R140). -/
theorem enabled_sync_of_unclocked {p : Config.Params} {s : State} (hc : s.hw.ascClkOn p = false) (i : Item) :
    s.enabled p (.sync i) = false := by
  rw [State.enabled, hc, Bool.and_false, Bool.false_and]

/-- With every generator off a source tick counts nowhere (R87). -/
theorem srcTick_of_generators_off {s : State} (hg : ∀ g : Fin 16, s.hw.gen[g].genen = false) (p : Config.Params)
    (src : BitVec 4) : s.srcTick p src = s := by
  refine srcTick_induct (· = s) (fun t g ht => ?_) s rfl
  subst ht
  obtain ⟨-, he⟩ | ⟨⟨-, hon, -⟩, -⟩ := tickGen_cases p src t g
  · exact he
  · exact absurd hon (Bool.eq_false_iff.mp (hg g))

/-- With every generator off SRCTICK's turn changes nothing, whether the source exists or not. -/
theorem agentTurn_srcTick_of_generators_off {s : State} (hu : s.undef = false)
    (hg : ∀ g : Fin 16, s.hw.gen[g].genen = false) (p : Config.Params) (src : BitVec 4) :
    s.agentTurn p (.srcTick src) = s := by
  obtain ⟨hf, -⟩ | ⟨-, -, he⟩ | ⟨-, -, he⟩ := agentTurn_cases p s (.srcTick src)
  · exact absurd hf (Bool.eq_false_iff.mp hu)
  · exact he.trans (srcTick_of_generators_off hg p src)
  · exact he

theorem generators_off_reset (g : Fin 16) : Hardware.reset.gen[g].genen = false :=
  congrArg GenEntry.genen (Vector.getElem_replicate g.isLt)

/-- Settles O7: the reads by their images, SYNC by the missing clock, SRCTICK by the disabled generators, the pins
by the missing serial clock period. -/
theorem resetReadsZero : Obligations.ResetReadsZero := by
  obtain ⟨hfs, hsck, hsd⟩ := State.pins_none (s := State.reset) rfl
  have hclk := ascClkOn_reset Config.params
  exact ⟨fun _ => exec_read_reset, rfl, hclk, enabled_sync_of_unclocked hclk,
    agentTurn_srcTick_of_generators_off rfl generators_off_reset Config.params, hfs, hsck, hsd, rfl⟩

end Sys2Proof.Machine

/-! Proofs of the encoding family's other statements: a transaction decodes from exactly the requests that agree with
its encoding, the illegal requests are told apart by where the selector's fields lie, the reserved masks are the
complements of the fields, and an address gives the selector of its register (spec/30_encoding.md R56, R58, R59;
spec/20_memory.md R40, R42). -/

namespace Sys2Proof

open Machine

/-! ### Decoding and encoding -/

theorem decode_encode (i : Instr) : decode (encode i) = .ok i := by
  cases i
  case rdCtrla | rdClkctrl0 | rdIntflag | rdSyncbusy | rdSerctrl0 | rdCgstatus | rdGencfg | rdClkroute =>
    exact decode_read _ _
  all_goals exact decode_write _ _

/-- The read transaction of a register carries no data word, so its encoding is that register's read selector. -/
theorem encode_of_readInstr {reg : Reg} {i : Instr} (h : readInstr reg = some i) :
    (encode i).sel = selector reg .read ∧ i.wdata? = none := by
  cases reg <;> cases h <;> exact ⟨rfl, rfl⟩

/-- The write transaction of a register carries its data word. -/
theorem encode_of_writeInstr {w : Word} {reg : Reg} {i : Instr} (h : writeInstr w reg = some i) :
    (encode i).sel = selector reg .write ∧ i.wdata? = some w := by
  cases reg <;> cases h <;> exact ⟨rfl, rfl⟩

theorem size_of_decode_ok {r : Request} {i : Instr} (h : decode r = .ok i) : r.size = 4 := by
  by_contra hs
  simp [decode, badAccess, hs] at h

/-- A request that decodes is the encoding of its transaction, but for the data word of a read (R56). -/
theorem encode_of_decode_ok {r : Request} {i : Instr} (h : decode r = .ok i) :
    r.sel = (encode i).sel ∧ ∀ w, i.wdata? = some w → r.wdata = w := by
  obtain ⟨reg, ⟨hsel, hi⟩ | ⟨hsel, hi⟩⟩ := decode_ok h
  · obtain ⟨henc, hw⟩ := encode_of_readInstr hi
    exact ⟨hsel.trans henc.symm, by simp [hw]⟩
  · obtain ⟨henc, hw⟩ := encode_of_writeInstr hi
    exact ⟨hsel.trans henc.symm, by simp [hw]⟩

/-- Decoding looks at a request's data word only where the transaction carries one. -/
theorem decode_of_sel {i : Instr} {w : Word} (h : ∀ v, i.wdata? = some v → w = v) :
    decode ⟨(encode i).sel, 4, w⟩ = .ok i := by
  cases i
  case rdCtrla | rdClkctrl0 | rdIntflag | rdSyncbusy | rdSerctrl0 | rdCgstatus | rdGencfg | rdClkroute =>
    exact decode_read _ _
  all_goals
    cases h _ rfl
    exact decode_encode _

/-- Settles O4: encoding is read back register by register, and a request that decodes has its transaction's selector
and data word. -/
theorem decodeInvertsEncode : Obligations.DecodeInvertsEncode := by
  refine ⟨decode_encode, fun i r => ⟨fun h => ⟨size_of_decode_ok h, encode_of_decode_ok h⟩, ?_⟩⟩
  obtain ⟨sel, size, w⟩ := r
  rintro ⟨rfl, rfl, hw⟩
  exact decode_of_sel hw

/-! ### Illegal requests -/

theorem selOffset_toNat (sel : BitVec 10) : (selOffset sel).toNat = sel.toNat % 256 := by
  simp [selOffset, BitVec.extractLsb'_toNat]

/-- BLK is bit 9 of the selector (R56). -/
theorem selBlock_eq_ofBool (sel : BitVec 10) : selBlock sel = BitVec.ofBool (sel.getLsbD 9) := by
  refine BitVec.eq_of_getLsbD_eq fun i hi => ?_
  obtain rfl : i = 0 := by omega
  simp [selBlock]

/-- X1 comes first: a wrong size or an address that is no multiple of 4 (R42). -/
theorem decode_of_badAccess {r : Request} (h : r.size ≠ 4 ∨ r.sel.toNat % 4 ≠ 0) : decode r = .error .x1 := by
  have hoff : r.sel.toNat % 256 % 4 = r.sel.toNat % 4 := Nat.mod_mod_of_dvd _ (by decide)
  have hbad : badAccess r = true := by simpa [badAccess, selOffset_toNat, hoff] using h
  simp [decode, hbad]

theorem decode_of_unmapped {sel : BitVec 10} {w : Word} (ha : sel.toNat % 4 = 0)
    (hreg : regAt (selBlock sel) (selOffset sel) = none) : decode ⟨sel, 4, w⟩ = .error .x2 := by
  have hoff : sel.toNat % 256 % 4 = sel.toNat % 4 := Nat.mod_mod_of_dvd _ (by decide)
  simp [decode, badAccess, selOffset_toNat, hoff, ha, hreg]

/-- No register lies at an offset that R40's table does not list for the block. -/
theorem regAt_eq_none {sel : BitVec 10}
    (h0 : sel.getLsbD 9 = false → sel.toNat % 256 ∉ [0x00, 0x04, 0x14, 0x18, 0x20, 0x30])
    (h1 : sel.getLsbD 9 = true → sel.toNat % 256 ∉ [0x00, 0x04, 0x08]) :
    regAt (selBlock sel) (selOffset sel) = none := by
  rw [← selOffset_toNat] at h0 h1
  cases hreg : regAt (selBlock sel) (selOffset sel) with
  | none => rfl
  | some r =>
    obtain ⟨hblock, hoff⟩ := regAt_some hreg
    rw [← hoff] at h0 h1
    cases hbit : sel.getLsbD 9 with
    | false =>
      rw [selBlock_eq_ofBool, hbit] at hblock
      have := h0 hbit
      cases r <;> revert hblock this <;> decide
    | true =>
      rw [selBlock_eq_ofBool, hbit] at hblock
      have := h1 hbit
      cases r <;> revert hblock this <;> decide

/-- Settles O3: X1 by the access, X2 by the offsets of R40's table, X3 and X4 by the registers that have no such
transaction. -/
theorem illegalSelectorsRejected : Obligations.IllegalSelectorsRejected :=
  ⟨fun _ => decode_of_badAccess, fun _ _ ha h0 h1 => decode_of_unmapped ha (regAt_eq_none h0 h1),
    fun w => ⟨decode_write .syncbusy w, decode_write .cgstatus w, decode_read .data0 w⟩⟩

/-! ### Reserved bits -/

/-- A word has no bit of a mask set exactly when its bits lie where the mask is 0. -/
theorem Word.and_eq_zero_iff {w m : Word} {P : Nat → Prop} (hP : ∀ n, n < 32 → (m.getLsbD n = false ↔ P n)) :
    w &&& m = 0 ↔ ∀ n, w.getLsbD n = true → P n := by
  constructor
  · intro h n hn
    refine (hP n (BitVec.lt_of_getLsbD hn)).1 ?_
    have := congrArg (·.getLsbD n) h
    simpa [hn] using this
  · intro h
    refine BitVec.eq_of_getLsbD_eq fun n hn => ?_
    cases hw : w.getLsbD n with
    | false => simp [hw]
    | true => simp [(hP n hn).2 (h n hw)]

/-- A write is well formed exactly when its word has ones only in the fields, where its register's mask is 0. -/
theorem wellFormed_iff_fields {i : Instr} {r : Reg} {w : Word} {P : Nat → Prop} (hr : i.reg = r)
    (hw : i.wdata? = some w) (hP : ∀ n, n < 32 → ((reservedMask r).getLsbD n = false ↔ P n)) :
    i.wellFormed = true ↔ ∀ n, w.getLsbD n = true → P n := by
  rw [← Word.and_eq_zero_iff hP]
  simp [Instr.wellFormed, hw, hr]

/-- Settles O5: each mask is 0 at exactly the bits of its register's fields. -/
theorem wellFormedMeansFieldsOnly : Obligations.WellFormedMeansFieldsOnly := fun _ =>
  ⟨wellFormed_iff_fields (r := .ctrla) rfl rfl (by decide),
    wellFormed_iff_fields (r := .clkctrl0) rfl rfl (by decide),
    wellFormed_iff_fields (r := .serctrl0) rfl rfl (by decide),
    wellFormed_iff_fields (r := .intflag) rfl rfl (by decide),
    beq_iff_eq.2 BitVec.and_zero,
    wellFormed_iff_fields (r := .gencfg) rfl rfl (by decide),
    wellFormed_iff_fields (r := .clkroute) rfl rfl (by decide)⟩

/-! ### The address map -/

/-- An address inside the ASC block gives a selector of block 0. -/
theorem addressSel_asc (p : Config.Params) (off : BitVec 8) (d : Dir) :
    addressSel p (p.ascBase + off.toNat) d = some ((0 : BitVec 1) ++ d.bit ++ off) := by
  have hoff := off.isLt
  rw [addressSel, if_pos (by omega), Nat.add_sub_cancel_left, BitVec.ofNat_toNat, BitVec.setWidth_eq]

/-- An address inside the CG block gives a selector of block 1, because the blocks do not overlap (R40). -/
theorem addressSel_cg {p : Config.Params} (hp : p.Valid) (off : BitVec 8) (d : Dir) :
    addressSel p (p.cgBase + off.toNat) d = some ((1 : BitVec 1) ++ d.bit ++ off) := by
  have hoff := off.isLt
  obtain ⟨-, -, hdisj, -⟩ := hp
  rw [addressSel, if_neg (by omega), if_pos (by omega), Nat.add_sub_cancel_left, BitVec.ofNat_toNat, BitVec.setWidth_eq]

theorem addressSel_outside {p : Config.Params} {addr : Nat} {d : Dir}
    (ha : ¬(p.ascBase ≤ addr ∧ addr < p.ascBase + 0x100)) (hc : ¬(p.cgBase ≤ addr ∧ addr < p.cgBase + 0x100)) :
    addressSel p addr d = none := by
  rw [addressSel, if_neg ha, if_neg hc]

/-- Settles O6: the offset of a register is recovered from its address, in either block. -/
theorem addressMapSelectsRegisters : Obligations.AddressMapSelectsRegisters := by
  intro p hp d
  refine ⟨fun r => ?_, fun addr => addressSel_outside⟩
  cases r
  case cgstatus | gencfg | clkroute => exact addressSel_cg hp _ d
  all_goals exact addressSel_asc p _ d

/-- Settles O2: each word is small enough to be decoded by evaluation. -/
theorem wordsDecodeAsWritten : Obligations.WordsDecodeAsWritten := by
  unfold Obligations.WordsDecodeAsWritten
  decide

end Sys2Proof

/-! Proofs about the HOST's transactions: the HOST's turn as an equation of `step`, the guards of R70, what a write
does by its register's verdict, each register's rule by its own conditions, and the table of faults
(spec/40_bus_access.md R70 to R73; spec/41_clock_generator.md R81, R83; spec/42_control_config.md R100, R102, R104,
R106; spec/43_data_flags.md R122; spec/60_exceptions.md R200). -/

namespace Sys2Proof.Machine

open Sys2Proof

section
variable {s : State} {op : HostOp} {rest : List HostOp} {i : Instr} {r : Request}

/-! ### The HOST's turn (R70, R73) -/

theorem runRequest_of_ok (hd : decode r = .ok i) (s : State) : runRequest r s = exec i s := by
  simp only [runRequest, hd]

theorem runRequest_of_error {x : Reason} (hd : decode r = .error x) (s : State) :
    runRequest r s = rejectRequest x s := by
  simp only [runRequest, hd]

/-- In the HOST's turn the first operation's request runs. -/
theorem step_host (ht : s.turn = .host) (hh : s.host = op :: rest) :
    step s = resumeOut op (runRequest op.request { s.turnTaken with host := rest }) := by
  simp only [step, ht, runTurn, hostTurn, State.turnTaken_host, hh]

/-- In the HOST's turn with its program run out the playback loop makes a pass. -/
theorem step_host_nil (ht : s.turn = .host) (hh : s.host = []) : step s = .next s.turnTaken.playbackPass := by
  simp only [step, ht, runTurn, hostTurn, State.turnTaken_host, hh]

/-- A WR or RD leaves nothing of itself in the program. -/
@[simp] theorem resumeOut_issue (r : Request) (o : Out) : resumeOut (.issue r) o = o := by
  cases o <;> rfl

theorem live_turnTaken (hl : s.Live) (ops : List HostOp) : State.Live { s.turnTaken with host := ops } :=
  ⟨s.turnTaken_undef.trans hl.1, s.turnTaken_refused.trans hl.2⟩

/-- Settles O10: the request of the first operation is the decoded transaction. -/
theorem stepRunsHostTransaction : Obligations.StepRunsHostTransaction := by
  intro s op rest i ht hh hd
  rw [step_host ht hh, runRequest_of_ok hd]

/-- Settles O11: the rejection passes R70's first checks and records its reason. -/
theorem stepRefusesIllegalRequest : Obligations.StepRefusesIllegalRequest := by
  intro s r rest x hl ht hh hd
  rw [step_host ht hh, resumeOut_issue, HostOp.request, runRequest_of_error hd]
  exact guarded_live (live_turnTaken hl rest)

theorem decodeTableWord_eq_some {nbits w : Nat} (h : decodeTableWord nbits w = some i) :
    ∃ r, requestOfBits nbits w = some r ∧ decode r = .ok i := by
  unfold decodeTableWord at h
  split at h
  · cases h
  next r hr =>
    split at h
    next j hj =>
      cases h
      exact ⟨r, hr, hj⟩
    · cases h

/-- Settles O12: the placed request is the first operation, and taking the turn and the operation gives the state
back. -/
theorem stepRunsFetchWord : Obligations.StepRunsFetchWord := by
  intro s nbits w i h
  obtain ⟨r, hr, hd⟩ := decodeTableWord_eq_some h
  have hplaced : s.withFetchWord nbits w = s.withRequest r := by simp only [State.withFetchWord, hr]
  rw [hplaced, step_host rfl rfl, resumeOut_issue, HostOp.request, runRequest_of_ok hd]
  rfl

/-! ### Reads (R71) -/

theorem exec_of_readImage {image : Hardware → Word} (hi : readImage i = some image) (s : State) :
    exec i s = busRead i.reg image s := by
  cases i <;> cases hi <;> rfl

/-- The HOST's turn with an operation that reads: the image is the result, it is logged, and the program goes on by
it. -/
theorem step_read {image : Hardware → Word} (hl : s.Live) (ht : s.turn = .host) (hh : s.host = op :: rest)
    (hd : decode op.request = .ok i) (hi : readImage i = some image) :
    step s = .next { s.turnTaken with
      host := op.left (image s.hw) ++ rest
      result := image s.hw, buslog := s.buslog ++ [⟨selector i.reg .read, image s.hw⟩] } := by
  rw [step_host ht hh, runRequest_of_ok hd, exec_of_readImage hi, busRead_live (live_turnTaken hl rest)]
  simp [resumeOut, State.resume, State.logBus]

/-- The HOST's turn with a POLL first in its program (R73). -/
theorem step_poll {reg : Reg} {mask want : Word} {image : Hardware → Word} (hl : s.Live) (ht : s.turn = .host)
    (hh : s.host = pollOp reg mask want :: rest) (hd : readInstr reg = some i) (hi : readImage i = some image) :
    step s = .next { s.turnTaken with
      host := if image s.hw &&& mask = want then rest else s.host
      result := image s.hw, buslog := s.buslog ++ [⟨selector reg .read, image s.hw⟩] } := by
  have hdec : decode (pollOp reg mask want).request = .ok i := by
    rw [pollOp, HostOp.request, decode_read, hd]
    rfl
  have hreg : i.reg = reg := by cases reg <;> cases hd <;> rfl
  have hleft : (pollOp reg mask want).left (image s.hw) ++ rest =
      if image s.hw &&& mask = want then rest else s.host := by
    rw [hh, pollOp, HostOp.left]
    split <;> rfl
  rw [step_read hl ht hh hdec hi, hleft, hreg]

/-- Settles O13: each register but DATA0 has a read, whose image decides whether the POLL goes on. -/
theorem pollRepeatsUntilWanted : Obligations.PollRepeatsUntilWanted := by
  intro s r mask want rest hl ht hr hh
  cases r
  case data0 => exact absurd rfl hr
  all_goals exact step_poll hl ht hh rfl rfl

end

end Sys2Proof.Machine

namespace Sys2Proof

/-- A flag moved to bit `k` is that bit alone. -/
theorem Word.getLsbD_ofFlag_shiftLeft (b : Bool) {k : Nat} (hk : k < 32) (n : Nat) :
    (Word.ofFlag b <<< k).getLsbD n = true ↔ n = k ∧ b = true := by
  cases b with
  | false => simp [Word.ofFlag]
  | true => simp [Word.ofFlag]; omega

end Sys2Proof

namespace Sys2Proof.Machine

open Sys2Proof

section
variable {s : State} {i : Instr}

/-- SYNCBUSY has one bit for each pending item (R22). -/
theorem getLsbD_syncbusyImage (h : Hardware) (n : Nat) :
    (syncbusyImage h).getLsbD n = true ↔
      (n = 1 ∧ h.pend.enable = true) ∨ (n = 2 ∧ h.pend.cken0 = true) ∨ (n = 4 ∧ h.pend.seren0 = true) ∨
      (n = 8 ∧ h.pend.data0 = true) ∨ (n = 10 ∧ h.pend.clkctrl0 = true) ∨ (n = 11 ∧ h.pend.serctrl0 = true) := by
  simp only [syncbusyImage, BitVec.getLsbD_or, Bool.or_eq_true, or_assoc,
    Word.getLsbD_ofFlag_shiftLeft _ (show 1 < 32 by decide), Word.getLsbD_ofFlag_shiftLeft _ (show 2 < 32 by decide),
    Word.getLsbD_ofFlag_shiftLeft _ (show 4 < 32 by decide), Word.getLsbD_ofFlag_shiftLeft _ (show 8 < 32 by decide),
    Word.getLsbD_ofFlag_shiftLeft _ (show 10 < 32 by decide), Word.getLsbD_ofFlag_shiftLeft _ (show 11 < 32 by decide)]

/-- SYNCBUSY reads 0 exactly when nothing is pending (R22). -/
theorem syncbusyImage_eq_zero_iff (h : Hardware) : syncbusyImage h = 0 ↔ ∀ i, h.pend.has i = false := by
  constructor
  · intro hz i
    have hbit (n : Nat) := (getLsbD_syncbusyImage h n).not.1 (by simp [hz])
    cases i
    case enable => simpa [Pend.has] using hbit 1
    case cken0 => simpa [Pend.has] using hbit 2
    case seren0 => simpa [Pend.has] using hbit 4
    case data0 => simpa [Pend.has] using hbit 8
    case clkctrl0 => simpa [Pend.has] using hbit 10
    case serctrl0 => simpa [Pend.has] using hbit 11
  · intro hp
    have hempty : h.pend = Pend.empty := Pend.ext_has fun i => by cases i <;> exact hp _
    rw [syncbusyImage, hempty]
    rfl

/-- Settles O18: the image returned has a bit for each item. -/
theorem rdSyncbusyReturnsPending : Obligations.RdSyncbusyReturnsPending := fun s hl =>
  ⟨syncbusyImage s.hw, busRead_live hl, getLsbD_syncbusyImage s.hw, syncbusyImage_eq_zero_iff s.hw⟩

/-! ### The guards of every transaction (R70) -/

theorem exec_guarded (i : Instr) (s : State) : ∃ k, exec i s = guarded s k := by
  obtain ⟨image, -, he⟩ | ⟨w, rule, -, -, he⟩ := exec_form i
  · exact ⟨_, he s⟩
  · exact ⟨_, he s⟩

/-- Settles O26: an ill-formed transaction is a write, and the write primitive tests the mask before the rule. -/
theorem reservedBitRefusedFirst : Obligations.ReservedBitRefusedFirst := by
  intro i s hl hf
  obtain ⟨image, hi, -⟩ | ⟨w, rule, -, hw, he⟩ := exec_form i
  · cases i <;> cases hi <;> cases hf
  · have hmask : w &&& reservedMask i.reg ≠ 0 := by simpa [Instr.wellFormed, hw] using hf
    rw [he, busWrite_reserved hl hmask]
    rfl

/-- Settles O27: the first check of R70. -/
theorem afterRefusalNothingRuns : Obligations.AfterRefusalNothingRuns := by
  intro i s hr
  obtain ⟨k, hk⟩ := exec_guarded i s
  rw [hk, guarded_refused hr]

/-- Settles O28: the second check of R70. -/
theorem afterFaultEveryTransactionPasses : Obligations.AfterFaultEveryTransactionPasses := by
  intro i s hr hu
  obtain ⟨k, hk⟩ := exec_guarded i s
  exact ⟨_, _, hk.trans (guarded_undef hr hu)⟩

/-! ### A write by its verdict (R72) -/

section
variable {r : Reg} {w : Word} {rule : Hardware → Verdict}

/-- A well-formed write that its rule accepts. -/
theorem exec_accepted {h : Hardware} (hl : s.Live) (he : exec i s = busWrite r w rule s)
    (hw : w &&& reservedMask r = 0) (hv : rule s.hw = .accept h) :
    exec i s = .next { s with hw := h, buslog := s.buslog ++ [⟨selector r .write, w⟩] } := by
  rw [he, busWrite_live hl hw, hv]
  rfl

/-- A well-formed write that its rule refuses. -/
theorem exec_refused {x : Reason} (hl : s.Live) (he : exec i s = busWrite r w rule s)
    (hw : w &&& reservedMask r = 0) (hv : rule s.hw = .refuse x) :
    exec i s = .next { s with
      refused := true, reason := some x, buslog := s.buslog ++ [⟨selector r .write, w⟩] } := by
  rw [he, busWrite_live hl hw, hv]
  rfl

/-- A well-formed write for which its rule raises a fault. -/
theorem exec_faulted {u : Fault} (hl : s.Live) (he : exec i s = busWrite r w rule s)
    (hw : w &&& reservedMask r = 0) (hv : rule s.hw = .fault u) :
    ∃ h, exec i s = .next { s with
      hw := h, undef := true, cause := some ⟨u, selector r .write, w⟩, fresh := s.fresh + 1
      buslog := s.buslog ++ [⟨selector r .write, w⟩] } := by
  rw [he, busWrite_live hl hw, hv]
  exact ⟨_, rfl⟩

end

/-! ### WR.CTRLA (R100, R107) -/

theorem pendWaiting_iff (p : Pend) :
    (p.anyEnsync || p.anyCfgsync) = true ↔
      p.enable = true ∨ p.cken0 = true ∨ p.seren0 = true ∨ p.clkctrl0 = true ∨ p.serctrl0 = true := by
  simp only [Pend.anyEnsync, Pend.anyCfgsync, Bool.or_eq_true, or_assoc]

/-- The three enable bits are those of the mask 0x16 (R15). -/
theorem ctrlaFields_any_iff (w : Word) : (ctrlaFields w).any = true ↔ ¬w &&& 0x16 = 0 := by
  rw [Word.and_eq_zero_iff (P := fun n => n ≠ 1 ∧ n ≠ 2 ∧ n ≠ 4) (by decide)]
  constructor
  · intro h hbits
    have h1 := hbits 1
    have h2 := hbits 2
    have h4 := hbits 4
    simp_all [Enables.any, ctrlaFields]
  · intro h
    by_contra hany
    refine h fun n hn => ⟨?_, ?_, ?_⟩ <;> rintro rfl <;> simp_all [Enables.any, ctrlaFields]

/-- Where nothing waits and an enable bit is set without the reference configuration (R107). -/
theorem ctrlaRule_refuse {w : Word} {h : Hardware} (hp : ¬(h.pend.anyEnsync || h.pend.anyCfgsync) = true)
    (ha : ¬((ctrlaFields w).any = true → h.refcfg = true)) : ctrlaRule w h = .refuse .x7 := by
  simp_all [ctrlaRule]

/-- Settles O20: the conditions of `ctrlaRule`, in its order. -/
theorem wrCtrlaFollowsItsRule : Obligations.WrCtrlaFollowsItsRule := by
  intro s w hl hw waiting admitted
  have he : exec (.wrCtrla w) s = busWrite .ctrla w (ctrlaRule w) s := rfl
  have hwait : waiting ↔ (s.hw.pend.anyEnsync || s.hw.pend.anyCfgsync) = true := (pendWaiting_iff _).symm
  have hadm : admitted ↔ ((ctrlaFields w).any = true → s.hw.refcfg = true) := by
    rw [ctrlaFields_any_iff, refcfg_iff]
    exact or_iff_not_imp_left
  rw [hwait, hadm]
  refine ⟨fun h => ?_, fun h ha => ?_, fun h ha => ?_⟩
  · have hv : ctrlaRule w s.hw = .fault .u2 := if_pos h
    exact exec_faulted hl he hw hv
  · exact exec_refused hl he hw (ctrlaRule_refuse h ha)
  · obtain ⟨hen, hcfg⟩ := Bool.or_eq_false_iff.1 (Bool.eq_false_iff.2 h)
    exact exec_accepted hl he hw (ctrlaRule_accept hen hcfg ha)

/-! ### WR.CLKCTRL0 and WR.SERCTRL0 (R102, R104) -/

theorem clkctrl0Rule_fault_u3 {h : Hardware} (w : Word) (hd : h.notFullyDisabled = true) :
    clkctrl0Rule w h = .fault .u3 := if_pos hd

theorem clkctrl0Rule_fault_u4 {h : Hardware} (w : Word) (hd : h.notFullyDisabled = false)
    (hp : h.pend.clkctrl0 = true) : clkctrl0Rule w h = .fault .u4 := by
  simp [clkctrl0Rule, hd, hp]

theorem clkctrl0Rule_accept {h : Hardware} (w : Word) (hd : h.notFullyDisabled = false)
    (hp : h.pend.clkctrl0 = false) :
    clkctrl0Rule w h = .accept { h with clkctrl0 := w, pend := h.pend.add .clkctrl0 } := by
  simp [clkctrl0Rule, hd, hp]

theorem serctrl0Rule_fault_u3 {h : Hardware} (w : Word) (hd : h.notFullyDisabled = true) :
    serctrl0Rule w h = .fault .u3 := if_pos hd

theorem serctrl0Rule_fault_u4 {h : Hardware} (w : Word) (hd : h.notFullyDisabled = false)
    (hp : h.pend.serctrl0 = true) : serctrl0Rule w h = .fault .u4 := by
  simp [serctrl0Rule, hd, hp]

theorem serctrl0Rule_accept {h : Hardware} (w : Word) (hd : h.notFullyDisabled = false)
    (hp : h.pend.serctrl0 = false) :
    serctrl0Rule w h = .accept { h with serctrl0 := w, pend := h.pend.add .serctrl0 } := by
  simp [serctrl0Rule, hd, hp]

/-- Settles O21: both rules test the same condition first and then their own item. -/
theorem wrConfigFollowsItsRule : Obligations.WrConfigFollowsItsRule := by
  intro s w hl busy faulted
  have hbusy : busy ↔ s.hw.notFullyDisabled = true := (notFullyDisabled_iff _).symm
  have hclk : exec (.wrClkctrl0 w) s = busWrite .clkctrl0 w (clkctrl0Rule w) s := rfl
  have hser : exec (.wrSerctrl0 w) s = busWrite .serctrl0 w (serctrl0Rule w) s := rfl
  have hfault {i : Instr} {r : Reg} {rule : Hardware → Verdict} {u : Fault} (he : exec i s = busWrite r w rule s)
      (hw : w &&& reservedMask r = 0) (hv : rule s.hw = .fault u) :
      ∃ t, exec i s = .next t ∧ faulted u (selector r .write) t := by
    obtain ⟨h, hstep⟩ := exec_faulted hl he hw hv
    exact ⟨_, hstep, h, rfl⟩
  simp only [hbusy, Bool.not_eq_true]
  refine ⟨fun hw => ⟨fun h => ?_, fun h hp => ?_, fun h hp => ?_⟩,
    fun hw => ⟨fun h => ?_, fun h hp => ?_, fun h hp => ?_⟩⟩
  · exact hfault hclk hw (clkctrl0Rule_fault_u3 w h)
  · exact hfault hclk hw (clkctrl0Rule_fault_u4 w h hp)
  · exact exec_accepted hl hclk hw (clkctrl0Rule_accept w h hp)
  · exact hfault hser hw (serctrl0Rule_fault_u3 w h)
  · exact hfault hser hw (serctrl0Rule_fault_u4 w h hp)
  · exact exec_accepted hl hser hw (serctrl0Rule_accept w h hp)

/-! ### WR.DATA0 (R122) -/

theorem data0Rule_accept {h : Hardware} (w : Word) (hr : h.txrdy0 = true) :
    data0Rule w h =
      .accept { h with datareg := w, datatag := h.wslot, wslot := h.wslot + 1, pend := h.pend.add .data0 } := by
  simp [data0Rule, hr]

theorem data0Rule_fault {h : Hardware} (w : Word) (hr : h.txrdy0 = false) : data0Rule w h = .fault .u5 := by
  simp [data0Rule, hr]

/-- The other slot (R12). -/
theorem slot_succ : ∀ n : Slot, n + 1 = if n = 0 then 1 else 0 := by decide

/-- Settles O23: R20's condition is TXRDY0, and a pending DATA0 lowers it. -/
theorem wrData0AcceptsWhenReady : Obligations.WrData0AcceptsWhenReady := by
  intro s w hl ready
  have he : exec (.wrData0 w) s = busWrite .data0 w (data0Rule w) s := rfl
  have hready : ready ↔ s.hw.txrdy0 = true := (txrdy0_iff s.hw).symm
  have hmask : w &&& reservedMask .data0 = 0 := BitVec.and_zero
  rw [hready]
  refine ⟨fun h => ⟨?_, ?_⟩, fun h => ?_⟩
  · rw [← slot_succ]
    exact exec_accepted hl he hmask (data0Rule_accept w h)
  · simp [Hardware.txrdy0]
  · exact exec_faulted hl he hmask (data0Rule_fault w (Bool.eq_false_iff.2 h))

/-! ### WR.GENCFG and WR.CLKROUTE (R81, R83) -/

theorem gencfgRule_fault {p : Config.Params} {h : Hardware} (w : Word) (hb : h.cgbusy = true) :
    gencfgRule p w h = .fault .u1 := if_pos hb

theorem gencfgRule_refuse_x6 {p : Config.Params} {w : Word} {h : Hardware} (hb : h.cgbusy = false)
    (hr : gencfgOutOfRange p w = true) : gencfgRule p w h = .refuse .x6 := by
  simp [gencfgRule, hb, hr]

theorem gencfgRule_refuse_x8 {p : Config.Params} {w : Word} {h : Hardware} (hb : h.cgbusy = false)
    (hr : gencfgOutOfRange p w = false) (ht : gencfgTouchesAsc p w h = true) :
    gencfgRule p w h = .refuse .x8 := by
  simp [gencfgRule, hb, hr, ht]

theorem gencfgRule_accept {p : Config.Params} {w : Word} {h : Hardware} (hb : h.cgbusy = false)
    (hr : gencfgOutOfRange p w = false) (ht : gencfgTouchesAsc p w h = false) :
    gencfgRule p w h = .accept { h with gencfg := w, cgpend := .gen w, cgbusy := true } := by
  simp [gencfgRule, hb, hr, ht]

theorem clkrouteRule_fault {p : Config.Params} {h : Hardware} (w : Word) (hb : h.cgbusy = true) :
    clkrouteRule p w h = .fault .u1 := if_pos hb

theorem clkrouteRule_refuse_x6 {p : Config.Params} {w : Word} {h : Hardware} (hb : h.cgbusy = false)
    (hr : clkrouteOutOfRange p w = true) : clkrouteRule p w h = .refuse .x6 := by
  simp [clkrouteRule, hb, hr]

theorem clkrouteRule_refuse_x8 {p : Config.Params} {w : Word} {h : Hardware} (hb : h.cgbusy = false)
    (hr : clkrouteOutOfRange p w = false) (ht : clkrouteTouchesAsc p w h = true) :
    clkrouteRule p w h = .refuse .x8 := by
  simp [clkrouteRule, hb, hr, ht]

theorem clkrouteRule_accept {p : Config.Params} {w : Word} {h : Hardware} (hb : h.cgbusy = false)
    (hr : clkrouteOutOfRange p w = false) (ht : clkrouteTouchesAsc p w h = false) :
    clkrouteRule p w h = .accept { h with clkroute := w, cgpend := .route w, cgbusy := true } := by
  simp [clkrouteRule, hb, hr, ht]

/-- Settles O24: the conditions of `gencfgRule`, in its order. -/
theorem wrGencfgFollowsItsRule : Obligations.WrGencfgFollowsItsRule := by
  intro s w hl hw bad touches
  have he : exec (.wrGencfg w) s = busWrite .gencfg w (gencfgRule Config.params w) s := rfl
  have hbad : bad ↔ gencfgOutOfRange Config.params w = true := by
    rw [gencfgOutOfRange_iff, or_comm, or_assoc]
    rfl
  have htouch : touches ↔ gencfgTouchesAsc Config.params w s.hw = true := by
    rw [gencfgTouchesAsc_iff, ascActive_iff]
    rfl
  simp only [hbad, htouch, Bool.not_eq_true]
  exact ⟨fun hb => exec_faulted hl he hw (gencfgRule_fault w hb),
    fun hb hr => exec_refused hl he hw (gencfgRule_refuse_x6 hb hr),
    fun hb hr ht => exec_refused hl he hw (gencfgRule_refuse_x8 hb hr ht),
    fun hb hr ht => exec_accepted hl he hw (gencfgRule_accept hb hr ht)⟩

/-- Settles O25: the conditions of `clkrouteRule`, in its order. -/
theorem wrClkrouteFollowsItsRule : Obligations.WrClkrouteFollowsItsRule := by
  intro s w hl hw bad touches
  have he : exec (.wrClkroute w) s = busWrite .clkroute w (clkrouteRule Config.params w) s := rfl
  have hbad : bad ↔ clkrouteOutOfRange Config.params w = true := (clkrouteOutOfRange_iff _ w).symm
  have htouch : touches ↔ clkrouteTouchesAsc Config.params w s.hw = true := by
    rw [clkrouteTouchesAsc_iff, ascActive_iff]
    rfl
  simp only [hbad, htouch, Bool.not_eq_true]
  exact ⟨fun hb => exec_faulted hl he hw (clkrouteRule_fault w hb),
    fun hb hr => exec_refused hl he hw (clkrouteRule_refuse_x6 hb hr),
    fun hb hr ht => exec_refused hl he hw (clkrouteRule_refuse_x8 hb hr ht),
    fun hb hr ht => exec_accepted hl he hw (clkrouteRule_accept hb hr ht)⟩

/-! ### The table of fault causes (R200) -/

/-- The fault a verdict raises. -/
def Verdict.fault? : Verdict → Option Fault
  | .fault u => some u
  | .accept _ | .refuse _ => none

/-- R200's table names for a write what the register's rule raises. -/
theorem faultOf_of_writeRule {w : Word} {rule : Hardware → Verdict} (hr : writeRule i = some (w, rule))
    (h : Hardware) : faultOf i h = (rule h).fault? := by
  cases i <;> cases hr
  case wrCtrla =>
    obtain ⟨hp, hv⟩ | ⟨he, hc, -, -, hv⟩ | ⟨he, hc, -, hv⟩ := ctrlaRule_cases _ h <;> rw [hv] <;>
      simp_all [faultOf, Verdict.fault?, Pend.anyEnsync, Pend.anyCfgsync, or_assoc]
  case wrClkctrl0 =>
    obtain ⟨hd, hv⟩ | ⟨hd, hp, hv⟩ | ⟨hd, hp, hv⟩ := clkctrl0Rule_cases _ h <;> rw [hv] <;>
      simp [faultOf, Verdict.fault?, *]
  case wrSerctrl0 =>
    obtain ⟨hd, hv⟩ | ⟨hd, hp, hv⟩ | ⟨hd, hp, hv⟩ := serctrl0Rule_cases _ h <;> rw [hv] <;>
      simp [faultOf, Verdict.fault?, *]
  case wrIntflag => rfl
  case wrData0 =>
    obtain ⟨hd, hv⟩ | ⟨hd, hv⟩ := data0Rule_cases _ h <;> rw [hv] <;> simp [faultOf, Verdict.fault?, hd]
  case wrGencfg =>
    obtain ⟨hb, hv⟩ | ⟨hb, -, hv⟩ | ⟨hb, -, -, hv⟩ | ⟨hb, -, -, hv⟩ := gencfgRule_cases Config.params _ h <;>
      rw [hv] <;> simp [faultOf, Verdict.fault?, hb]
  case wrClkroute =>
    obtain ⟨hb, hv⟩ | ⟨hb, -, hv⟩ | ⟨hb, -, -, hv⟩ | ⟨hb, -, -, hv⟩ := clkrouteRule_cases Config.params _ h <;>
      rw [hv] <;> simp [faultOf, Verdict.fault?, hb]

theorem faultOf_of_readImage {image : Hardware → Word} (hi : readImage i = some image) (h : Hardware) :
    faultOf i h = none := by
  cases i <;> cases hi <;> rfl

/-- A verdict sets `undef` exactly where it raises a fault. -/
theorem apply_undef (s : State) (sel : BitVec 10) (w : Word) (v : Verdict) :
    (s.apply sel w v).undef = (v.fault?.isSome || s.undef) := by
  cases v <;> simp [Verdict.fault?]

/-- The fault a verdict raises is recorded with the transaction. -/
theorem apply_cause {sel : BitVec 10} {w : Word} {v : Verdict} {u : Fault} (hv : v.fault? = some u) (s : State) :
    (s.apply sel w v).cause = some ⟨u, sel, w⟩ := by
  cases v <;> cases hv
  rfl

/-- The encoding of a write is its register's write selector with its word. -/
theorem encode_of_wdata {w : Word} (hw : i.wdata? = some w) :
    (encode i).sel = selector i.reg .write ∧ (encode i).wdata = w := by
  simp [encode, Instr.dir, hw]

/-- Settles O29: a read faults nowhere, and a write where its rule says so, which is what the table says. -/
theorem faultsAreTheTable : Obligations.FaultsAreTheTable := by
  intro i s hl hf
  obtain ⟨image, hi, he⟩ | ⟨w, rule, hr, hw, he⟩ := exec_form i
  · refine ⟨_, (he s).trans (busRead_live hl), ?_, ?_⟩ <;> rw [faultOf_of_readImage hi]
    · exact hl.1
    · exact fun u hu => nomatch hu
  · have hmask : w &&& reservedMask i.reg = 0 := by simpa [Instr.wellFormed, hw] using hf
    obtain ⟨hsel, hdata⟩ := encode_of_wdata hw
    refine ⟨_, (he s).trans (busWrite_live hl hmask), ?_, fun u hu => ?_⟩
    · rw [apply_undef, faultOf_of_writeRule hr, State.logBus_undef, hl.1, Bool.or_false]
    · rw [apply_cause ((faultOf_of_writeRule hr s.hw).symm.trans hu), hsel, hdata]

end

end Sys2Proof.Machine

/-! Proofs about the divider, the frame and the serializer: a pass of SRCTICK's loop is at most one serial clock period
and one new divider phase, so that the whole loop is at most one period, and `k` ticks are `(cnt + k) / DIV` of them;
what such a period does to the slots, the data path and the pins (spec/41_clock_generator.md R86, R87;
spec/44_agents_timing_serializer.md R147 to R152; spec/10_state.md R34). -/

namespace Sys2Proof.Machine

open Sys2Proof

/-! ### The divider phases apart from the rest -/

/-- The state with other divider phases. -/
def State.withCnt (s : State) (c : Vector Nat 16) : State := s.setHw { s.hw with cnt := c }

section
variable {p : Config.Params} {src : BitVec 4} {s : State} {g g' : Fin 16} {c : Vector Nat 16}

@[simp] theorem State.withCnt_withCnt (s : State) (c d : Vector Nat 16) : (s.withCnt c).withCnt d = s.withCnt d := rfl

@[simp] theorem State.withCnt_cnt (s : State) : s.withCnt s.hw.cnt = s := rfl

theorem slotStart_withCnt (draw : Word) (s : State) (slot : Slot) (c : Vector Nat 16) :
    (s.withCnt c).slotStart draw slot = (s.slotStart draw slot).withCnt c := by
  by_cases hh : ∃ x, s.hw.hold = some x ∧ x.slot = slot
  · obtain ⟨x, hx, hs⟩ := hh
    rw [slotStart_load hx hs, slotStart_load (s := s.withCnt c) hx hs]
    rfl
  · have hu : ∀ x, s.hw.hold = some x → x.slot ≠ slot := fun x hx hs => hh ⟨x, hx, hs⟩
    rw [slotStart_underrun hu, slotStart_underrun (s := s.withCnt c) hu]
    rfl

theorem sckSlot_withCnt (draw : Word) (s : State) (c : Vector Nat 16) :
    (s.withCnt c).sckSlot draw = (s.sckSlot draw).withCnt c := by
  rw [State.sckSlot, State.sckSlot, slotStart_withCnt, apply_ite (State.withCnt · c)]
  rfl

/-- A serial clock period does not look at the divider phases. -/
theorem sckTick_withCnt (p : Config.Params) (s : State) (c : Vector Nat 16) :
    (s.withCnt c).sckTick p = (s.sckTick p).withCnt c := by
  rw [State.sckTick, sckSlot_withCnt]
  rfl

/-- Generator `g` exists, is enabled and counts the source's periods (R87). -/
def Hardware.Counts (p : Config.Params) (src : BitVec 4) (h : Hardware) (g : Fin 16) : Prop :=
  g.val < p.nGen ∧ h.gen[g].genen = true ∧ h.gen[g].src = src

/-- The phase of generator `g` after a tick of the source (R87). -/
def Hardware.phaseAfter (p : Config.Params) (src : BitVec 4) (h : Hardware) (g : Fin 16) : Nat :=
  if g.val < p.nGen ∧ h.gen[g].genen = true ∧ h.gen[g].src = src then
    (if h.cnt[g] + 1 = h.gen[g].div.toNat then 0 else h.cnt[g] + 1)
  else h.cnt[g]

theorem Hardware.Counts.phaseAfter {h : Hardware} (hc : h.Counts p src g) :
    h.phaseAfter p src g = if h.cnt[g] + 1 = h.gen[g].div.toNat then 0 else h.cnt[g] + 1 := if_pos hc

/-- The tick makes generator `g` wrap, and the wrap reaches the clock unit (R87, R147). -/
def Hardware.Reaches (p : Config.Params) (src : BitVec 4) (h : Hardware) (g : Fin 16) : Prop :=
  h.clkRun = true ∧ h.feedsAsc p g = true ∧ h.Counts p src g ∧ h.cnt[g] + 1 = h.gen[g].div.toNat

/-- One pass of SRCTICK's loop. -/
theorem tickGen_eq (p : Config.Params) (src : BitVec 4) (s : State) (g : Fin 16) :
    (s.hw.Reaches p src g ∧
      s.tickGen p src g = (s.sckTick p).withCnt (s.hw.cnt.set g (s.hw.phaseAfter p src g) g.isLt)) ∨
    (¬s.hw.Reaches p src g ∧
      s.tickGen p src g = s.withCnt (s.hw.cnt.set g (s.hw.phaseAfter p src g) g.isLt)) := by
  obtain ⟨hc, he⟩ | ⟨hc, ⟨hd, he⟩ | ⟨hd, ⟨hr, he⟩ | ⟨hf, hr, he⟩⟩⟩ := tickGen_cases p src s g <;> rw [he]
  · refine .inr ⟨fun h => hc h.2.2.1, ?_⟩
    rw [Hardware.phaseAfter, if_neg hc]
    simp
  · refine .inr ⟨fun h => hd h.2.2.2, ?_⟩
    rw [Hardware.Counts.phaseAfter hc, if_neg hd]
    rfl
  · refine .inr ⟨fun h => hr ⟨h.2.1, h.1⟩, ?_⟩
    rw [Hardware.Counts.phaseAfter hc, if_pos hd]
    rfl
  · refine .inl ⟨⟨hr, hf, hc, hd⟩, ?_⟩
    rw [Hardware.Counts.phaseAfter hc, if_pos hd]
    exact sckTick_withCnt p s _

/-! ### The whole tick: at most one serial clock period -/

/-- Only one generator feeds the ASC. -/
theorem Hardware.Reaches.unique {h : Hardware} (hg : h.Reaches p src g) (hg' : h.Reaches p src g') : g = g' := by
  obtain ⟨-, hf, -⟩ := hg
  obtain ⟨-, hf', -⟩ := hg'
  simp only [Hardware.feedsAsc, Bool.and_eq_true, beq_iff_eq] at hf hf'
  exact hf.2.symm.trans hf'.2

/-- What a state's divider phases leave for generators other than `g` to do. -/
structure SameBut (g : Fin 16) (h k : Hardware) : Prop where
  gen : k.gen = h.gen
  chan : k.chan = h.chan
  eff : k.eff = h.eff
  cnt : ∀ g' : Fin 16, g' ≠ g → k.cnt[g'] = h.cnt[g']

theorem SameBut.phaseAfter {h k : Hardware} (hs : SameBut g h k) (hg : g' ≠ g) :
    k.phaseAfter p src g' = h.phaseAfter p src g' := by
  simp only [Hardware.phaseAfter, hs.gen, hs.cnt g' hg]

theorem SameBut.reaches {h k : Hardware} (hs : SameBut g h k) (hg : g' ≠ g) :
    k.Reaches p src g' ↔ h.Reaches p src g' := by
  simp only [Hardware.Reaches, Hardware.Counts, Hardware.feedsAsc, Hardware.ascChan, Hardware.clkRun, hs.gen, hs.chan,
    hs.eff, hs.cnt g' hg]

@[simp] theorem sckTick_gen (p : Config.Params) (s : State) : (s.sckTick p).hw.gen = s.hw.gen := by
  rw [(sckTick_frame p s).1]

@[simp] theorem sckTick_chan (p : Config.Params) (s : State) : (s.sckTick p).hw.chan = s.hw.chan := by
  rw [(sckTick_frame p s).1]

@[simp] theorem sckTick_eff (p : Config.Params) (s : State) : (s.sckTick p).hw.eff = s.hw.eff := by
  rw [(sckTick_frame p s).1]

/-- A pass of the loop decides its own generator's phase and leaves the other generators as they are. -/
theorem tickGen_sameBut (p : Config.Params) (src : BitVec 4) (s : State) (g : Fin 16) :
    SameBut g s.hw (s.tickGen p src g).hw ∧ (s.tickGen p src g).hw.cnt[g] = s.hw.phaseAfter p src g := by
  have hset (g' : Fin 16) (hg : g' ≠ g) :
      (s.hw.cnt.set g (s.hw.phaseAfter p src g) g.isLt)[g'] = s.hw.cnt[g'] :=
    Vector.getElem_set_ne _ _ fun he => hg (Fin.ext he.symm)
  obtain ⟨-, he⟩ | ⟨-, he⟩ := tickGen_eq p src s g <;> rw [he]
  · exact ⟨⟨sckTick_gen p s, sckTick_chan p s, sckTick_eff p s, hset⟩, Vector.getElem_set_self _⟩
  · exact ⟨⟨rfl, rfl, rfl, hset⟩, Vector.getElem_set_self _⟩

/-- SRCTICK's loop over some of the generators: each of them gets its next phase, and a serial clock period begins
exactly where one of them reaches the clock unit. -/
theorem foldl_tickGen (p : Config.Params) (src : BitVec 4) (l : List (Fin 16)) (hl : l.Nodup) (s : State) :
    ∃ cnt : Vector Nat 16, (∀ g : Fin 16, cnt[g] = if g ∈ l then s.hw.phaseAfter p src g else s.hw.cnt[g]) ∧
      ((∃ g ∈ l, s.hw.Reaches p src g) → l.foldl (State.tickGen p src) s = (s.sckTick p).withCnt cnt) ∧
      ((∀ g ∈ l, ¬s.hw.Reaches p src g) → l.foldl (State.tickGen p src) s = s.withCnt cnt) := by
  induction l generalizing s with
  | nil => exact ⟨s.hw.cnt, by simp⟩
  | cons g l ih =>
    obtain ⟨hg, hl⟩ := List.nodup_cons.1 hl
    have hne (g' : Fin 16) (h : g' ∈ l) : g' ≠ g := fun he => hg (he ▸ h)
    obtain ⟨hb, hself⟩ := tickGen_sameBut p src s g
    obtain ⟨cnt, hc, hyes, hno⟩ := ih hl (s.tickGen p src g)
    refine ⟨cnt, fun g' => ?_, ?_, ?_⟩
    · rw [hc g']
      by_cases hmem : g' ∈ l
      · simp [hmem, hb.phaseAfter (hne g' hmem)]
      · by_cases heq : g' = g
        · subst heq
          simp [hmem, hself]
        · simp [hmem, heq, hb.cnt g' heq]
    · rintro ⟨g', hmem, hr⟩
      obtain ⟨hrg, he⟩ | ⟨hrg, he⟩ := tickGen_eq p src s g
      · have hrest : ∀ g'' ∈ l, ¬(s.tickGen p src g).hw.Reaches p src g'' := fun g'' h'' hr'' =>
          hne g'' h'' (((hb.reaches (hne g'' h'')).1 hr'').unique hrg)
        rw [List.foldl_cons, hno hrest, he, State.withCnt_withCnt]
      · have hmem' : g' ∈ l := (List.mem_cons.1 hmem).resolve_left fun h => hrg (h ▸ hr)
        rw [List.foldl_cons, hyes ⟨g', hmem', (hb.reaches (hne g' hmem')).2 hr⟩, he, sckTick_withCnt,
          State.withCnt_withCnt]
    · intro hnone
      obtain ⟨hrg, -⟩ | ⟨-, he⟩ := tickGen_eq p src s g
      · exact absurd hrg (hnone g List.mem_cons_self)
      · have hrest : ∀ g'' ∈ l, ¬(s.tickGen p src g).hw.Reaches p src g'' := fun g'' h'' hr'' =>
          hnone g'' (List.mem_cons_of_mem g h'') ((hb.reaches (hne g'' h'')).1 hr'')
        rw [List.foldl_cons, hno hrest, he, State.withCnt_withCnt]

/-- SRCTICK: every phase advances, and a serial clock period begins exactly where some generator reaches the clock
unit. -/
theorem srcTick_eq (p : Config.Params) (src : BitVec 4) (s : State) :
    ∃ cnt : Vector Nat 16, (∀ g : Fin 16, cnt[g] = s.hw.phaseAfter p src g) ∧
      (((∃ g, s.hw.Reaches p src g) ∧ s.srcTick p src = (s.sckTick p).withCnt cnt) ∨
        ((∀ g, ¬s.hw.Reaches p src g) ∧ s.srcTick p src = s.withCnt cnt)) := by
  obtain ⟨cnt, hc, hyes, hno⟩ := foldl_tickGen p src (List.finRange 16) (List.nodup_finRange 16) s
  refine ⟨cnt, fun g => by simpa using hc g, ?_⟩
  by_cases h : ∃ g, s.hw.Reaches p src g
  · obtain ⟨g, hr⟩ := h
    exact .inl ⟨⟨g, hr⟩, hyes ⟨g, List.mem_finRange g, hr⟩⟩
  · exact .inr ⟨fun g hr => h ⟨g, hr⟩, hno fun g _ hr => h ⟨g, hr⟩⟩

/-- The generator that reaches the clock unit is the one the ASC's route names. -/
theorem exists_reaches_iff (h : Hardware) :
    (∃ g, h.Reaches p src g) ↔
      (h.clkRun = true ∧ (h.ascChan p).clken = true ∧ h.Counts p src (h.ascChan p).gen.toFin ∧
        h.cnt[(h.ascChan p).gen.toFin] + 1 = h.gen[(h.ascChan p).gen.toFin].div.toNat) := by
  simp only [Hardware.Reaches, Hardware.feedsAsc, Bool.and_eq_true, beq_iff_eq]
  constructor
  · rintro ⟨g, hr, ⟨hk, rfl⟩, hc, hd⟩
    exact ⟨hr, hk, hc, hd⟩
  · rintro ⟨hr, hk, hc, hd⟩
    exact ⟨_, hr, ⟨hk, rfl⟩, hc, hd⟩

/-- Settles O41: the phases by the passes of the loop, the period by the one generator that the ASC's route names. -/
theorem sourceTickAdvancesDividers : Obligations.SourceTickAdvancesDividers := by
  intro p src s
  obtain ⟨cnt, hc, h⟩ := srcTick_eq p src s
  have hreach := exists_reaches_iff (p := p) (src := src) s.hw
  constructor
  · intro g
    obtain ⟨-, he⟩ | ⟨-, he⟩ := h <;> rw [he] <;> exact hc g
  · intro g reaches
    have hiff : reaches ↔ ∃ g, s.hw.Reaches p src g := by
      rw [hreach]
      simp only [reaches, g, Hardware.Counts, and_assoc]
    refine ⟨cnt, fun hr => ?_, fun hr => ?_⟩
    · obtain ⟨-, he⟩ | ⟨hno, -⟩ := h
      · exact he
      · exact absurd (hiff.1 hr) (not_exists.2 hno)
    · obtain ⟨hyes, -⟩ | ⟨-, he⟩ := h
      · exact absurd (hiff.2 hyes) hr
      · exact he

/-! ### The frequency law (R86, R87) -/

/-- The clock unit runs from generator `g`, which counts the source's periods. -/
structure Hardware.RunsFrom (p : Config.Params) (src : BitVec 4) (h : Hardware) (g : Fin 16) : Prop where
  run : h.clkRun = true
  feeds : h.feedsAsc p g = true
  counts : h.Counts p src g

theorem Hardware.RunsFrom.exists_reaches_iff {h : Hardware} (hf : h.RunsFrom p src g) :
    (∃ g', h.Reaches p src g') ↔ h.cnt[g] + 1 = h.gen[g].div.toNat := by
  constructor
  · rintro ⟨g', hr, hg, hc, hd⟩
    have hf' := hf.feeds
    simp only [Hardware.feedsAsc, Bool.and_eq_true, beq_iff_eq] at hg hf'
    rwa [← hf'.2, hg.2]
  · exact fun hd => ⟨g, hf.run, hf.feeds, hf.counts, hd⟩

/-- A serial clock period leaves the clock unit running from the same generator. -/
theorem runsFrom_sckTick (hf : s.hw.RunsFrom p src g) : (s.sckTick p).hw.RunsFrom p src g := by
  obtain ⟨hr, hk, hc⟩ := hf
  refine ⟨?_, ?_, ?_⟩
  · simpa [Hardware.clkRun] using hr
  · simpa [Hardware.feedsAsc, Hardware.ascChan] using hk
  · simpa [Hardware.Counts] using hc

/-- A tick of the source of a running clock unit: its generator's phase wraps and one serial clock period begins, or
the phase counts on. -/
theorem srcTick_of_runsFrom (hf : s.hw.RunsFrom p src g) :
    ∃ cnt : Vector Nat 16,
      (s.hw.cnt[g] + 1 = s.hw.gen[g].div.toNat ∧ s.srcTick p src = (s.sckTick p).withCnt cnt ∧ cnt[g] = 0) ∨
      (s.hw.cnt[g] + 1 ≠ s.hw.gen[g].div.toNat ∧ s.srcTick p src = s.withCnt cnt ∧ cnt[g] = s.hw.cnt[g] + 1) := by
  obtain ⟨cnt, hc, h⟩ := srcTick_eq p src s
  have hg := hc g
  rw [hf.counts.phaseAfter] at hg
  rw [hf.exists_reaches_iff, ← not_exists, hf.exists_reaches_iff] at h
  obtain ⟨hd, he⟩ | ⟨hd, he⟩ := h
  · exact ⟨cnt, .inl ⟨hd, he, by rw [hg, if_pos hd]⟩⟩
  · exact ⟨cnt, .inr ⟨hd, he, by rw [hg, if_neg hd]⟩⟩

/-- Some number of serial clock periods, one after the other. -/
theorem sckTick_iterate (p : Config.Params) (s : State) (n : Nat) :
    ((State.sckTick p)^[n] s).hw.gen = s.hw.gen ∧
      ((State.sckTick p)^[n] s).pinlog.length = s.pinlog.length + n ∧
      ((State.sckTick p)^[n] s).hw.t.val = (s.hw.t.val + n) % 64 := by
  induction n with
  | zero => exact ⟨rfl, rfl, (Nat.mod_eq_of_lt s.hw.t.isLt).symm⟩
  | succ n ih =>
    obtain ⟨hgen, hlog, ht⟩ := ih
    obtain ⟨hframe, hlen⟩ := sckTick_frame p ((State.sckTick p)^[n] s)
    rw [Function.iterate_succ_apply']
    refine ⟨(sckTick_gen p _).trans hgen, by omega, ?_⟩
    rw [hframe]
    simp only [Fin.val_add, ht, Fin.val_one]
    omega

theorem runsFrom_sckTick_iterate (hf : s.hw.RunsFrom p src g) (n : Nat) :
    ((State.sckTick p)^[n] s).hw.RunsFrom p src g := by
  induction n with
  | zero => exact hf
  | succ n ih =>
    rw [Function.iterate_succ_apply']
    exact runsFrom_sckTick ih

/-- One more unit carries into the quotient exactly where the remainder is the last one. -/
theorem div_mod_succ {m d : Nat} (hd : 0 < d) :
    (m % d + 1 = d ∧ (m + 1) / d = m / d + 1 ∧ (m + 1) % d = 0) ∨
      (m % d + 1 ≠ d ∧ (m + 1) / d = m / d ∧ (m + 1) % d = m % d + 1) := by
  have hlt := Nat.mod_lt m hd
  have hm := Nat.mod_add_div m d
  by_cases h : m % d + 1 = d
  · refine .inl ⟨h, (Nat.div_mod_unique hd).2 ⟨?_, hd⟩⟩
    rw [Nat.mul_add_one]
    omega
  · exact .inr ⟨h, (Nat.div_mod_unique hd).2 ⟨by omega, by omega⟩⟩

/-- `k` ticks of the source are `(cnt + k) / DIV` serial clock periods, and leave the phase at the remainder. -/
theorem srcTick_iterate (hf : s.hw.RunsFrom p src g) (hlt : s.hw.cnt[g] < s.hw.gen[g].div.toNat) (k : Nat) :
    ∃ cnt : Vector Nat 16,
      (State.srcTick p src)^[k] s =
        ((State.sckTick p)^[(s.hw.cnt[g] + k) / s.hw.gen[g].div.toNat] s).withCnt cnt ∧
      cnt[g] = (s.hw.cnt[g] + k) % s.hw.gen[g].div.toNat := by
  induction k with
  | zero => exact ⟨s.hw.cnt, by rw [Nat.add_zero, Nat.div_eq_of_lt hlt]; rfl, (Nat.mod_eq_of_lt hlt).symm⟩
  | succ k ih =>
    obtain ⟨cnt, hk, hcnt⟩ := ih
    generalize hn : (s.hw.cnt[g] + k) / s.hw.gen[g].div.toNat = n at hk
    obtain ⟨hgen, -, -⟩ := sckTick_iterate p s n
    have hrun : (((State.sckTick p)^[n] s).withCnt cnt).hw.RunsFrom p src g := by
      obtain ⟨hr, hk, hc⟩ := runsFrom_sckTick_iterate hf n
      exact ⟨hr, hk, hc⟩
    have hdiv : (((State.sckTick p)^[n] s).withCnt cnt).hw.gen[g].div.toNat = s.hw.gen[g].div.toNat :=
      congrArg (fun v : Vector GenEntry 16 => v[g].div.toNat) hgen
    have hphase : (((State.sckTick p)^[n] s).withCnt cnt).hw.cnt[g] =
        (s.hw.cnt[g] + k) % s.hw.gen[g].div.toNat := hcnt
    rw [Function.iterate_succ_apply', hk, ← Nat.add_assoc]
    obtain ⟨cnt', ⟨hd, he, hg⟩ | ⟨hd, he, hg⟩⟩ := srcTick_of_runsFrom hrun <;>
      rw [hdiv, hphase] at hd <;>
      obtain ⟨hd', hq, hr⟩ | ⟨hd', hq, hr⟩ := div_mod_succ (m := s.hw.cnt[g] + k) (Nat.zero_lt_of_lt hlt)
    · refine ⟨cnt', ?_, hg.trans hr.symm⟩
      rw [he, hq, hn, sckTick_withCnt, State.withCnt_withCnt, Function.iterate_succ_apply']
    · exact absurd hd hd'
    · exact absurd hd' hd
    · refine ⟨cnt', ?_, ?_⟩
      · rw [he, hq, hn, State.withCnt_withCnt]
      · rw [hg, hr, hphase]

/-- Settles O42: `k` ticks by induction, one serial clock period at each wrap of the generator's phase. -/
theorem ticksMakeSerialPeriods : Obligations.TicksMakeSerialPeriods := by
  intro p src s g k hr hk hg hn he hs hlt n u v
  have hf : s.hw.RunsFrom p src g := by
    refine ⟨hr, ?_, hn, he, hs⟩
    have hgen : (s.hw.ascChan p).gen.toFin = g := Fin.ext hg
    rw [Hardware.feedsAsc, hk, hgen, BEq.rfl]
    rfl
  obtain ⟨cnt, hu, hcnt⟩ := srcTick_iterate hf hlt k
  obtain ⟨-, hlog, ht⟩ := sckTick_iterate p s n
  have hu : u = v.withCnt cnt := hu
  rw [hu]
  exact ⟨⟨cnt, rfl⟩, hlog, hcnt, ht⟩

/-! ### Slots (R148, R149) -/

/-- A slot's first bit is at `t = 1` and at `t = 33` (R148). -/
theorem dataBit_eq_zero_iff : ∀ t : Fin 64, dataBit (dataPosition t) = 0 ↔ t = 1 ∨ t = 33 := by decide

theorem sckSlot_of_no_start (draw : Word) (h : s.hw.serRun = false ∨ (s.hw.t ≠ 1 ∧ s.hw.t ≠ 33)) :
    s.sckSlot draw = s := by
  rw [State.sckSlot, if_neg]
  rw [Bool.and_eq_true, beq_iff_eq, dataBit_eq_zero_iff]
  rintro ⟨hr, ht⟩
  obtain h | ⟨h1, h33⟩ := h
  · exact absurd hr (Bool.eq_false_iff.1 h)
  · exact ht.elim h1 h33

theorem sckSlot_of_start (draw : Word) {slot : Slot} (hr : s.hw.serRun = true)
    (h : (s.hw.t = 1 ∧ slot = 0) ∨ (s.hw.t = 33 ∧ slot = 1)) : s.sckSlot draw = s.slotStart draw slot := by
  rw [State.sckSlot, hr]
  obtain ⟨ht, rfl⟩ | ⟨ht, rfl⟩ := h <;> rw [ht] <;> rfl

/-- A slot start logs no period and leaves the hardware but for the underrun flag and the data path. -/
theorem sckSlot_frame (draw : Word) (s : State) :
    (s.sckSlot draw).pinlog = s.pinlog ∧ (s.sckSlot draw).hw = { s.hw with
      txur0 := (s.sckSlot draw).hw.txur0, hold := (s.sckSlot draw).hw.hold, sh := (s.sckSlot draw).hw.sh } := by
  unfold State.sckSlot State.slotStart
  split
  · split
    · split <;> exact ⟨rfl, rfl⟩
    · exact ⟨rfl, rfl⟩
  · exact ⟨rfl, rfl⟩

theorem sckTick_txlog (p : Config.Params) (s : State) : (s.sckTick p).txlog = (s.sckSlot s.draw).txlog := rfl

theorem sckTick_hw (p : Config.Params) (s : State) :
    (s.sckTick p).hw = { (s.sckSlot s.draw).hw with
      t := (s.sckSlot s.draw).hw.t + 1, begun := true, serBegun := true } := rfl

/-- Settles O43: a slot starts at the positions of its first bit, and loads the held word where that is its own. -/
theorem slotStartsLoadOrUnderrun : Obligations.SlotStartsLoadOrUnderrun := by
  intro p s u
  refine ⟨fun h => ?_, fun slot hr ht => ⟨fun w hw => ?_, fun hw => ?_⟩⟩
  · rw [sckTick_txlog, sckTick_hw, sckSlot_of_no_start _ h]
    exact ⟨rfl, rfl⟩
  · rw [sckTick_txlog, sckTick_hw, sckSlot_of_start _ hr ht, slotStart_load hw rfl]
    exact ⟨rfl, rfl⟩
  · have hne : ∀ x, s.hw.hold = some x → x.slot ≠ slot := fun x hx hs => hw x.word (hs ▸ hx)
    rw [sckTick_txlog, sckTick_hw, sckSlot_of_start _ hr ht, slotStart_underrun hne]
    exact ⟨rfl, _, rfl⟩

/-! ### The frame (R148, R150 to R152) -/

/-- The entry that a serial clock period logs, said of the state before it and the shift register after it. -/
theorem sckTick_pinlog (p : Config.Params) (s : State) :
    (s.sckTick p).pinlog = s.pinlog ++ [⟨fsLevel p s.hw.t,
      if s.hw.serRun && !s.hw.firstPeriod then sdBit (dataBit (dataPosition s.hw.t)) (s.sckTick p).hw.sh
      else .free (s.draw.getLsbD 0)⟩] := by
  obtain ⟨hlog, hhw⟩ := sckSlot_frame s.draw s
  have hentry : (s.sckSlot s.draw).sckPins p s.draw = ⟨fsLevel p s.hw.t,
      if s.hw.serRun && !s.hw.firstPeriod then sdBit (dataBit (dataPosition s.hw.t)) (s.sckSlot s.draw).hw.sh
      else .free (s.draw.getLsbD 0)⟩ := by
    rw [State.sckPins, hhw]
    rfl
  calc (s.sckTick p).pinlog
    _ = (s.sckSlot s.draw).pinlog ++ [(s.sckSlot s.draw).sckPins p s.draw] := rfl
    _ = _ := by rw [hlog, hentry]; rfl

/-- The bit of the word that the period `t` puts on SD (R152). -/
theorem sdBit_number : ∀ t : Fin 64, 31 - (dataBit (dataPosition t)).val =
    if t.val = 0 then 0 else if t.val ≤ 32 then 32 - t.val else 64 - t.val := by decide

/-- Settles O44: the logged entry, its data bit by whether the serializer runs and the period is the very first. -/
theorem frameIsTheTable : Obligations.FrameIsTheTable := by
  intro p s u bit
  have hfirst : s.hw.firstPeriod = true ↔ s.hw.t = 0 ∧ s.hw.begun = false := by simp [Hardware.firstPeriod]
  have hbit : bit = 31 - (dataBit (dataPosition s.hw.t)).val := (sdBit_number s.hw.t).symm
  refine ⟨_, _, sckTick_pinlog p s, rfl, ?_, ?_⟩
  · rw [← hfirst]
    cases hr : s.hw.serRun <;> cases hp : s.hw.firstPeriod <;> simp [sdBit, u]
  · cases hr : s.hw.serRun <;> cases hp : s.hw.firstPeriod <;> simp [sdBit, u, hbit]

/-! ### The pins (R34) -/

theorem period_eq_none (h : s.undef = true ∨ s.hw.clkRun = false ∨ s.hw.begun = false) : s.period = none := by
  refine Option.eq_none_iff_forall_ne_some.2 fun e he => ?_
  obtain ⟨hu, hc, hb, -⟩ := State.period_eq_some.1 he
  simp_all

/-- In a state of the invariant SD is `any` wherever the shift register is (D29, I22). -/
theorem pins_sd_any_of_unloaded (hi : s.Inv) (hs : s.hw.sh.any = true) : s.pins.sd.any = true := by
  cases hp : s.period with
  | none => exact (State.pins_none hp).2.2
  | some e =>
    obtain ⟨hu, -, -, hlast⟩ := State.period_eq_some.1 hp
    obtain ⟨-, -, hlive⟩ := hi
    obtain ⟨-, hbits⟩ := hlive hu
    cases hr : s.hw.serRun with
    | false => exact State.pins_sd_any (.inl hr)
    | true =>
      cases hb : s.hw.serBegun with
      | false => exact State.pins_sd_any (.inr hb)
      | true =>
        obtain ⟨-, -, hsd⟩ := State.pins_some hp
        rw [hsd hr hb]
        exact hbits hr hb hs e hlast

/-- After a serial clock period of a running clock unit FS has that period's level (R34, R151). -/
theorem pins_fs_sckTick (p : Config.Params) (hu : s.undef = false) (hc : s.hw.clkRun = true) :
    (s.sckTick p).pins.fs = .val (fsLevel p s.hw.t) := by
  obtain ⟨hundef, -⟩ := sameOutside_sckTick p s
  have hlast := (congrArg List.getLast? (sckTick_pinlog p s)).trans List.getLast?_concat
  have hrun : (s.sckTick p).hw.clkRun = true := by simpa [Hardware.clkRun] using hc
  exact (State.pins_some (State.period_eq_some.2 ⟨hundef.trans hu, hrun, rfl, hlast⟩)).1

/-- Settles O45: by whether a period is running, and what it logged. -/
theorem pinsCarryTheRunningPeriod : Obligations.PinsCarryTheRunningPeriod := fun _ =>
  ⟨fun h => State.pins_none (period_eq_none h), State.pins_sd_any, pins_sd_any_of_unloaded,
    fun _ hu hc hb hlast => State.pins_some (State.period_eq_some.2 ⟨hu, hc, hb, hlast⟩), pins_fs_sckTick⟩

end

end Sys2Proof.Machine

/-! Proofs about the agents' turns: a turn is the agent's step where it is enabled and passes otherwise, and what
CGSYNC and SYNC change (spec/41_clock_generator.md R85; spec/44_agents_timing_serializer.md R140 to R146). -/

namespace Sys2Proof.Machine

open Sys2Proof

section
variable {s : State}

/-! ### An agent's turn -/

theorem step_agent (ht : s.turn ≠ .host) : step s = .next (s.turnTaken.agentTurn Config.params s.turn) := by
  rw [step]
  cases h : s.turn
  case host => exact absurd h ht
  all_goals rfl

/-- Taking the turn leaves what decides whether its agent has a step. -/
@[simp] theorem enabled_turnTaken (p : Config.Params) (s : State) (turn : Turn) :
    s.turnTaken.enabled p turn = s.enabled p turn := by
  cases turn <;> simp [State.enabled]

theorem step_agent_enabled (ht : s.turn ≠ .host) (hu : s.undef = false)
    (he : s.enabled Config.params s.turn = true) :
    step s = .next (s.turnTaken.agentStep Config.params s.turn) := by
  rw [step_agent ht, State.agentTurn, State.turnTaken_undef, hu, enabled_turnTaken, he]
  rfl

theorem step_agent_idle (ht : s.turn ≠ .host) (hu : s.undef = false)
    (he : s.enabled Config.params s.turn = false) : step s = .next s.turnTaken := by
  rw [step_agent ht, State.agentTurn, State.turnTaken_undef, hu, enabled_turnTaken, he]
  rfl

/-- Settles O56: an existing source's turn is enabled, and its step is the tick. -/
theorem sourceTurnIsOneTick : Obligations.SourceTurnIsOneTick := by
  intro s src ht hu hs
  have he : s.enabled Config.params s.turn = true := by simp [ht, State.enabled, hu, hs]
  rw [step_agent_enabled (by simp [ht]) hu he, ht]
  rfl

/-- Settles O38: without its item, the clock or a pending write the agent is not enabled. -/
theorem agentsWaitUntilEnabled : Obligations.AgentsWaitUntilEnabled := by
  refine fun s hu => ⟨fun i ht h => ?_, fun ht h => ?_⟩ <;> refine step_agent_idle (by simp [ht]) hu ?_ <;> rw [ht]
  · obtain h | h := h <;> simp [State.enabled, h]
  · simp [State.enabled, h]

/-! ### CGSYNC (R85) -/

theorem step_cgSync_turn (ht : s.turn = .cgSync) (hu : s.undef = false) (hp : s.hw.cgpend ≠ .none) :
    step s = .next { s.turnTaken with hw := s.hw.cgSync } := by
  have he : s.enabled Config.params s.turn = true := by simp [ht, State.enabled, hu, hp]
  rw [step_agent_enabled (by simp [ht]) hu he, ht, State.agentStep, State.turnTaken_hw]
  rfl

theorem cgSync_of_gen {h : Hardware} {v : Word} (hp : h.cgpend = .gen v) :
    h.cgSync = { h with
      gen := h.gen.set (gencfgId v).toNat (gencfgEntry v) (gencfgId v).isLt
      cnt := h.cnt.set (gencfgId v).toNat 0 (gencfgId v).isLt, cgpend := .none, cgbusy := false } := by
  simp only [Hardware.cgSync, Hardware.applyCgPend, hp]

theorem cgSync_of_route {h : Hardware} {v : Word} (hp : h.cgpend = .route v) :
    h.cgSync = { h with
      chan := h.chan.set (clkrouteCid v).toNat (clkrouteEntry v) (clkrouteCid v).isLt, cgpend := .none
      cgbusy := false } := by
  simp only [Hardware.cgSync, Hardware.applyCgPend, hp]

/-- An entry of a table after one entry was written. -/
theorem getElem_fin_set {α : Type} {n : Nat} (xs : Vector α n) (i : Nat) (x : α) (hi : i < n) (j : Fin n) :
    (xs.set i x hi)[j] = if j.val = i then x else xs[j] := by
  simp only [Fin.getElem_fin, Vector.getElem_set, eq_comm]

/-- Settles O37: the pending write names the entry that is set. -/
theorem cgSyncAppliesPendingWrite : Obligations.CgSyncAppliesPendingWrite := by
  intro s v ht hu
  refine ⟨fun hp => ?_, fun hp => ?_⟩
  · rw [step_cgSync_turn ht hu (by simp [hp]), cgSync_of_gen hp]
    exact ⟨_, _, rfl, getElem_fin_set _ _ _ _, getElem_fin_set _ _ _ _⟩
  · rw [step_cgSync_turn ht hu (by simp [hp]), cgSync_of_route hp]
    exact ⟨_, rfl, getElem_fin_set _ _ _ _⟩

/-! ### SYNC (R141 to R146) -/

theorem step_sync_turn {i : Item} (ht : s.turn = .sync i) (hu : s.undef = false) (hp : s.hw.pend.has i = true)
    (hc : s.hw.ascClkOn Config.params = true) :
    ∃ w, step s = .next { s.turnTaken with
      hw := s.hw.syncItem w i, fresh := s.turnTaken.fresh + 1 } := by
  have he : s.enabled Config.params s.turn = true := by simp [ht, State.enabled, hu, hp, hc]
  refine ⟨s.turnTaken.draw, ?_⟩
  rw [step_agent_enabled (by simp [ht]) hu he, ht, State.agentStep, State.turnTaken_hw]
  rfl

/-- Settles O40: neither a configuration item nor DATA0 starts or stops a unit. -/
theorem syncDataAndConfigTakeEffect : Obligations.SyncDataAndConfigTakeEffect := by
  refine fun s hu hc => ⟨fun ht hp => ?_, fun ht hp => ?_, fun ht hp => ?_⟩ <;>
  · obtain ⟨w, he⟩ := step_sync_turn ht hu hp hc
    exact he

/-- The effective enables after the SYNC of an item (R141 to R143). -/
def Hardware.effAfter (h : Hardware) : Item → Enables
  | .enable => { h.eff with enable := h.ctrla.enable }
  | .cken0 => { h.eff with cken0 := h.ctrla.cken0 }
  | .seren0 => { h.eff with seren0 := h.ctrla.seren0 }
  | .data0 | .clkctrl0 | .serctrl0 => h.eff

/-- RUN_EDGES with the conditions written out. -/
theorem runEdges_eq_ite (h : Hardware) (draw : Word) (oldClk oldSer : Bool) :
    h.runEdges draw oldClk oldSer = { h with
      t := if h.clkRun = true ∧ oldClk = false then 0 else h.t
      begun := if h.clkRun = true ∧ oldClk = false then false else h.begun
      wslot := if h.serRun = true ∧ oldSer = false then 0 else h.wslot
      hold := if h.serRun = oldSer then h.hold else none
      sh := if h.serRun = oldSer then h.sh else .free draw
      serBegun := if h.serRun = true ∧ oldSer = false then false else h.serBegun
      pend := if h.serRun = false ∧ oldSer = true then h.pend.drop .data0 else h.pend } := by
  rw [Hardware.runEdges_eq]
  generalize h.clkRun = clk, h.serRun = ser
  cases clk <;> cases oldClk <;> cases ser <;> cases oldSer <;> rfl

/-- Where no run condition changes RUN_EDGES does nothing. -/
theorem runEdges_self (h : Hardware) (draw : Word) : h.runEdges draw h.clkRun h.serRun = h := by
  rw [runEdges_eq_ite]
  cases h.clkRun <;> cases h.serRun <;> rfl

/-- SYNC of an item other than DATA0: the item is dropped, its enable bit becomes effective, and RUN_EDGES follows,
which does nothing where no run condition changes. -/
theorem syncItem_eq (draw : Word) (h : Hardware) {i : Item} (hi : i ≠ .data0) :
    h.syncItem draw i =
      { h with eff := h.effAfter i, pend := h.pend.drop i }.runEdges draw h.clkRun h.serRun := by
  cases i
  case enable | cken0 | seren0 => rfl
  case data0 => exact absurd rfl hi
  all_goals exact (runEdges_self { h with pend := h.pend.drop _ } draw).symm

/-- Settles O39: the SYNC of an enable item is RUN_EDGES after its bit became effective. -/
theorem syncEnableTakesEffect : Obligations.SyncEnableTakesEffect := by
  intro s i eff ht hu hp hc h clk ser
  obtain ⟨w, he⟩ := step_sync_turn ht hu hp hc
  have hi : i ≠ .data0 ∧ s.hw.effAfter i = eff := by
    obtain ⟨rfl, rfl⟩ | ⟨rfl, rfl⟩ | ⟨rfl, rfl⟩ := h <;> exact ⟨by decide, rfl⟩
  refine ⟨w, ?_⟩
  rw [he, syncItem_eq w s.hw hi.1, hi.2, runEdges_eq_ite]
  rfl

end

end Sys2Proof.Machine

/-! Proofs about the whole machine: one inversion of `step` by what it does to the hardware, the marks and the logs,
from which the step lemmas follow (spec/60_exceptions.md R200, R205; spec/42_control_config.md R109;
spec/20_memory.md R43; spec/43_data_flags.md R124; spec/45_driver_sequences.md R174, R180). -/

namespace Sys2Proof.Machine

open Sys2Proof

section
variable {s t : State} {i : Instr}

/-! ### What the agents' steps leave alone -/

/-- A source tick touches the divider phases and what a serial clock period touches. -/
theorem srcTick_cases (p : Config.Params) (src : BitVec 4) (s : State) :
    ∃ cnt : Vector Nat 16, s.srcTick p src = (s.sckTick p).withCnt cnt ∨ s.srcTick p src = s.withCnt cnt := by
  obtain ⟨cnt, -, ⟨-, he⟩ | ⟨-, he⟩⟩ := srcTick_eq p src s
  · exact ⟨cnt, .inl he⟩
  · exact ⟨cnt, .inr he⟩

theorem srcTick_frame (p : Config.Params) (src : BitVec 4) (s : State) :
    (s.srcTick p src).hw = { s.hw with
      txur0 := (s.srcTick p src).hw.txur0, hold := (s.srcTick p src).hw.hold, sh := (s.srcTick p src).hw.sh
      t := (s.srcTick p src).hw.t, begun := (s.srcTick p src).hw.begun, serBegun := (s.srcTick p src).hw.serBegun
      cnt := (s.srcTick p src).hw.cnt } := by
  obtain ⟨cnt, he | he⟩ := srcTick_cases p src s <;> rw [he]
  · obtain ⟨hf, -⟩ := sckTick_frame p s
    have ht : ((s.sckTick p).withCnt cnt).hw.t = s.hw.t + 1 := congrArg Hardware.t hf
    rw [ht]
    exact congrArg (fun h : Hardware => { h with cnt := cnt }) hf
  · rfl

/-- CGSYNC touches the CG's tables, phases and pending write. -/
theorem cgSync_frame (h : Hardware) :
    h.cgSync = { h with
      gen := h.cgSync.gen, chan := h.cgSync.chan, cnt := h.cgSync.cnt, cgpend := .none, cgbusy := false } := by
  unfold Hardware.cgSync Hardware.applyCgPend
  cases h.cgpend <;> rfl

/-- No agent writes the configuration registers (R109). -/
theorem agentStep_config (p : Config.Params) (s : State) (turn : Turn) :
    (s.agentStep p turn).hw.clkctrl0 = s.hw.clkctrl0 ∧ (s.agentStep p turn).hw.serctrl0 = s.hw.serctrl0 := by
  cases turn with
  | host => exact ⟨rfl, rfl⟩
  | cgSync =>
    rw [State.agentStep, State.setHw_hw, cgSync_frame]
    exact ⟨rfl, rfl⟩
  | sync i =>
    obtain ⟨-, -, hclk, hser, -⟩ := syncItem_frame s.hw s.draw i
    exact ⟨hclk, hser⟩
  | srcTick src =>
    rw [State.agentStep, srcTick_frame]
    exact ⟨rfl, rfl⟩

theorem sameOutside_agentTurn (p : Config.Params) (s : State) (turn : Turn) :
    SameOutside s (s.agentTurn p turn) := by
  obtain ⟨-, he⟩ | ⟨-, -, he⟩ | ⟨-, -, he⟩ := agentTurn_cases p s turn <;> rw [he]
  · exact ⟨rfl, rfl, rfl, rfl, rfl, rfl, rfl, rfl, rfl⟩
  · exact sameOutside_agentStep p s turn
  · exact .rfl' s

/-! ### What a write can be accepted as (R81, R83, R100, R102, R104, R121, R122) -/

/-- The hardware a write leads to where its rule accepts it, with what the rule has tested. -/
inductive Accepted (p : Config.Params) (h : Hardware) : Instr → Hardware → Prop
  | ctrla (w : Word) (hen : h.pend.anyEnsync = false) (hcfg : h.pend.anyCfgsync = false)
      (href : (ctrlaFields w).any = true → h.refcfg = true) :
      Accepted p h (.wrCtrla w) { h with ctrla := ctrlaFields w, pend := h.pend.addEnsync }
  | clkctrl0 (w : Word) (hoff : h.notFullyDisabled = false) :
      Accepted p h (.wrClkctrl0 w) { h with clkctrl0 := w, pend := h.pend.add .clkctrl0 }
  | serctrl0 (w : Word) (hoff : h.notFullyDisabled = false) :
      Accepted p h (.wrSerctrl0 w) { h with serctrl0 := w, pend := h.pend.add .serctrl0 }
  | intflag (w : Word) : Accepted p h (.wrIntflag w) { h with txur0 := h.txur0 && !intflagTxur0 w }
  | data0 (w : Word) (hready : h.txrdy0 = true) :
      Accepted p h (.wrData0 w)
        { h with datareg := w, datatag := h.wslot, wslot := h.wslot + 1, pend := h.pend.add .data0 }
  | gencfg (w : Word) (hidle : h.cgbusy = false) (hrange : gencfgOutOfRange p w = false) :
      Accepted p h (.wrGencfg w) { h with gencfg := w, cgpend := .gen w, cgbusy := true }
  | clkroute (w : Word) (hidle : h.cgbusy = false) (hrange : clkrouteOutOfRange p w = false) :
      Accepted p h (.wrClkroute w) { h with clkroute := w, cgpend := .route w, cgbusy := true }

theorem accepted_of_writeRule {w : Word} {rule : Hardware → Verdict} {h h' : Hardware}
    (hr : writeRule i = some (w, rule)) (hv : rule h = .accept h') : Accepted Config.params h i h' := by
  cases i <;> cases hr
  case wrCtrla =>
    obtain ⟨-, he⟩ | ⟨-, -, -, -, he⟩ | ⟨hen, hcfg, href, he⟩ := ctrlaRule_cases w h <;> cases he.symm.trans hv
    exact .ctrla w hen hcfg href
  case wrClkctrl0 =>
    obtain ⟨-, he⟩ | ⟨-, -, he⟩ | ⟨hoff, -, he⟩ := clkctrl0Rule_cases w h <;> cases he.symm.trans hv
    exact .clkctrl0 w hoff
  case wrSerctrl0 =>
    obtain ⟨-, he⟩ | ⟨-, -, he⟩ | ⟨hoff, -, he⟩ := serctrl0Rule_cases w h <;> cases he.symm.trans hv
    exact .serctrl0 w hoff
  case wrIntflag =>
    cases (intflagRule_eq w h).symm.trans hv
    exact .intflag w
  case wrData0 =>
    obtain ⟨-, he⟩ | ⟨hready, he⟩ := data0Rule_cases w h <;> cases he.symm.trans hv
    exact .data0 w hready
  case wrGencfg =>
    obtain ⟨-, he⟩ | ⟨-, -, he⟩ | ⟨-, -, -, he⟩ | ⟨hidle, hrange, -, he⟩ := gencfgRule_cases Config.params w h <;>
      cases he.symm.trans hv
    exact .gencfg w hidle hrange
  case wrClkroute =>
    obtain ⟨-, he⟩ | ⟨-, -, he⟩ | ⟨-, -, -, he⟩ | ⟨hidle, hrange, -, he⟩ := clkrouteRule_cases Config.params w h <;>
      cases he.symm.trans hv
    exact .clkroute w hidle hrange

/-! ### One step, said once -/

@[simp] theorem apply_host (s : State) (sel : BitVec 10) (w : Word) (v : Verdict) :
    (s.apply sel w v).host = s.host := by cases v <;> rfl

@[simp] theorem apply_player (s : State) (sel : BitVec 10) (w : Word) (v : Verdict) :
    (s.apply sel w v).player = s.player := by cases v <;> rfl

/-- A bus transaction does not touch the HOST's inputs. -/
theorem runRequest_inputs {r : Request} {u : State} (h : runRequest r s = .next u) :
    u.host = s.host ∧ u.player = s.player := by
  obtain ⟨-, ⟨-, rfl⟩ | ⟨-, ⟨x, rfl⟩ | ⟨i, image, -, -, rfl⟩ | ⟨i, w, rule, -, -, -, -, rfl⟩⟩⟩ := runRequest_next h
  · exact ⟨rfl, rfl⟩
  · exact ⟨rfl, rfl⟩
  · exact ⟨rfl, rfl⟩
  · exact ⟨apply_host .., apply_player ..⟩

/-- What one step does to the hardware, the fault mark and the logs of slots and pins. -/
inductive StepEffect (s t : State) : Prop
  /-- After a fault nothing is specified but the mark and the logs. -/
  | unspecified (hs : s.undef = true) (hundef : t.undef = true) (hcause : t.cause = s.cause)
      (htx : t.txlog = s.txlog)
  /-- A read, a refusal, a pass of the playback loop, or a turn that passes. -/
  | kept (hs : s.undef = false) (hundef : t.undef = false) (hcause : t.cause = s.cause) (hhw : t.hw = s.hw)
      (htx : t.txlog = s.txlog) (hpin : t.pinlog = s.pinlog)
  /-- A write that its rule accepts. -/
  | written (hs : s.undef = false) (hundef : t.undef = false) (hcause : t.cause = s.cause) (i : Instr)
      (hi : s.nextInstr = some i) (hf : i.wellFormed = true) (ha : Accepted Config.params s.hw i t.hw)
      (htx : t.txlog = s.txlog) (hpin : t.pinlog = s.pinlog)
  /-- A write for which its rule raises a fault. -/
  | faulted (hs : s.undef = false) (hundef : t.undef = true) (i : Instr) (u : Fault) (hi : s.nextInstr = some i)
      (hd : i.dir = .write) (hf : i.wellFormed = true) (hu : faultOf i s.hw = some u)
      (hcause : t.cause = some ⟨u, (encode i).sel, (encode i).wdata⟩) (htx : t.txlog = s.txlog)
  /-- The step of an agent that is enabled. -/
  | agent (hs : s.undef = false) (hturn : s.turn ≠ .host) (he : s.enabled Config.params s.turn = true)
      (ht : t = s.turnTaken.agentStep Config.params s.turn)

/-- The effect of a write by its verdict. -/
theorem stepEffect_of_write {op : HostOp} {rest : List HostOp} {w : Word} {rule : Hardware → Verdict}
    (hs : s.undef = false) (hi : s.nextInstr = some i) (hr : writeRule i = some (w, rule)) (hw : i.wdata? = some w)
    (hm : w &&& reservedMask i.reg = 0) :
    StepEffect s ((((State.logBus { s.turnTaken with host := rest } (selector i.reg .write) w).apply
      (selector i.reg .write) w (rule s.hw))).resume op) := by
  have hf : i.wellFormed = true := by simp [Instr.wellFormed, hw, hm]
  cases hv : rule s.hw with
  | accept h =>
    exact .written hs (s.turnTaken_undef.trans hs) s.turnTaken_cause i hi hf (accepted_of_writeRule hr hv)
      s.turnTaken_txlog s.turnTaken_pinlog
  | refuse x =>
    exact .kept hs (s.turnTaken_undef.trans hs) s.turnTaken_cause s.turnTaken_hw s.turnTaken_txlog s.turnTaken_pinlog
  | fault u =>
    obtain ⟨hsel, hdata⟩ := encode_of_wdata hw
    refine .faulted hs rfl i u hi (by simp [Instr.dir, hw]) hf ?_ ?_ s.turnTaken_txlog
    · rw [faultOf_of_writeRule hr, hv, Verdict.fault?]
    · rw [hsel, hdata]
      rfl

theorem step_effect (h : step s = .next t) : StepEffect s t := by
  have hundef := s.turnTaken_undef
  have hcause := s.turnTaken_cause
  have hhw := s.turnTaken_hw
  have htx := s.turnTaken_txlog
  have hpin := s.turnTaken_pinlog
  obtain ⟨-, -, rfl⟩ | ⟨op, rest, u, hturn, hhost, hrun, rfl⟩ | ⟨hturn, rfl⟩ := step_next h
  · cases hu : s.undef with
    | true => exact .unspecified hu (by simpa using hu) (by simp) (by simp)
    | false => exact .kept hu (by simpa using hu) (by simp) (by simp) (by simp) (by simp)
  · obtain ⟨-, ⟨hu, rfl⟩ | ⟨hu, ⟨x, rfl⟩ | ⟨i, image, -, -, rfl⟩ | ⟨i, w, rule, hd, hr, hw, hm, rfl⟩⟩⟩ :=
      runRequest_next hrun <;> replace hu := hundef.symm.trans hu
    · exact .unspecified hu (hundef.trans hu) hcause htx
    · exact .kept hu (hundef.trans hu) hcause hhw htx hpin
    · exact .kept hu (hundef.trans hu) hcause hhw htx hpin
    · rw [show State.hw { s.turnTaken with host := rest } = s.hw from hhw]
      exact stepEffect_of_write hu (nextInstr_of hturn hhost hd) hr hw hm
  · obtain ⟨hu, he⟩ | ⟨hu, hen, he⟩ | ⟨hu, -, he⟩ := agentTurn_cases Config.params s.turnTaken s.turn <;>
      rw [he] <;> replace hu := hundef.symm.trans hu
    · exact .unspecified hu (hundef.trans hu) hcause htx
    · exact .agent hu hturn ((enabled_turnTaken _ s _).symm.trans hen) rfl
    · exact .kept hu (hundef.trans hu) hcause hhw htx hpin

/-! ### Faults and marks (R200, R205) -/

/-- An agent's step keeps the marks and the HOST's side. -/
theorem agentStep_marks (s : State) (turn : Turn) :
    (s.turnTaken.agentStep Config.params turn).undef = s.undef ∧
      (s.turnTaken.agentStep Config.params turn).cause = s.cause := by
  obtain ⟨hu, hc, -⟩ := sameOutside_agentStep Config.params s.turnTaken turn
  exact ⟨hu.trans s.turnTaken_undef, hc.trans s.turnTaken_cause⟩

/-- Settles O30: of the effects of a step only a faulting write sets the mark. -/
theorem onlyHostWritesFault : Obligations.OnlyHostWritesFault := by
  intro s t h hs ht
  cases step_effect h with
  | unspecified hs' => exact absurd (hs.symm.trans hs') Bool.false_ne_true
  | kept _ hundef => exact absurd (hundef.symm.trans ht) Bool.false_ne_true
  | written _ hundef => exact absurd (hundef.symm.trans ht) Bool.false_ne_true
  | faulted _ _ i u hi hd hf hu hcause => exact ⟨i, u, hi, hd, hf, hu, hcause⟩
  | agent _ _ _ he =>
    subst he
    obtain ⟨hundef, -⟩ := agentStep_marks s s.turn
    exact absurd ((hundef.trans hs).symm.trans ht) Bool.false_ne_true

/-- A bus transaction answers a next state only where nothing was refused before. -/
theorem refused_of_host_step {op : HostOp} {rest : List HostOp} (h : step s = .next t) (ht : s.turn = .host)
    (hh : s.host = op :: rest) : s.refused = false := by
  obtain ⟨-, hnil, -⟩ | ⟨op, rest, u, -, -, hrun, -⟩ | ⟨hne, -⟩ := step_next h
  · exact absurd (hh.symm.trans hnil) (List.cons_ne_nil _ _)
  · exact s.turnTaken_refused.symm.trans (runRequest_next hrun).1
  · exact absurd ht hne

/-- Settles O31: after a fault a step leaves the mark and its cause, and no turn clears `refused`. -/
theorem marksAreSticky : Obligations.MarksAreSticky := by
  refine fun s t h => ⟨fun hs => ?_, fun hs => ?_⟩
  · cases step_effect h with
    | unspecified _ hundef hcause => exact ⟨hundef, hcause⟩
    | kept hs' | written hs' | faulted hs' | agent hs' => exact absurd (hs'.symm.trans hs) Bool.false_ne_true
  · obtain ⟨-, -, rfl⟩ | ⟨op, rest, u, hturn, hhost, -, -⟩ | ⟨-, rfl⟩ := step_next h
    · simpa using hs
    · exact absurd ((refused_of_host_step h hturn hhost).symm.trans hs) Bool.false_ne_true
    · obtain ⟨-, -, hr, -⟩ := sameOutside_agentTurn Config.params s.turnTaken s.turn
      exact hr.trans (s.turnTaken_refused.trans hs)

/-! ### The configuration (R109) -/

theorem Accepted.clkctrl0_eq {p : Config.Params} {h h' : Hardware} (ha : Accepted p h i h') :
    h'.clkctrl0 = h.clkctrl0 ∨ ∃ w, i = .wrClkctrl0 w ∧ h'.clkctrl0 = w := by
  cases ha with
  | clkctrl0 w => exact .inr ⟨w, rfl, rfl⟩
  | _ => exact .inl rfl

theorem Accepted.serctrl0_eq {p : Config.Params} {h h' : Hardware} (ha : Accepted p h i h') :
    h'.serctrl0 = h.serctrl0 ∨ ∃ w, i = .wrSerctrl0 w ∧ h'.serctrl0 = w := by
  cases ha with
  | serctrl0 w => exact .inr ⟨w, rfl, rfl⟩
  | _ => exact .inl rfl

/-- Settles O32: reads and agents leave both registers, and of the writes only the register's own changes it. -/
theorem configChangesOnlyByItsWrites : Obligations.ConfigChangesOnlyByItsWrites := by
  intro s t h ht
  cases step_effect h with
  | unspecified _ hundef | faulted _ hundef => exact absurd (ht.symm.trans hundef) Bool.false_ne_true
  | kept _ _ _ hhw => exact ⟨.inl (congrArg _ hhw), .inl (congrArg _ hhw)⟩
  | written _ _ _ i hi hf ha =>
    constructor
    · obtain he | ⟨w, rfl, he⟩ := ha.clkctrl0_eq
      · exact .inl he
      · exact .inr ⟨w, hi, beq_iff_eq.1 hf, he⟩
    · obtain he | ⟨w, rfl, he⟩ := ha.serctrl0_eq
      · exact .inl he
      · exact .inr ⟨w, hi, beq_iff_eq.1 hf, he⟩
  | agent _ _ _ he =>
    subst he
    obtain ⟨hclk, hser⟩ := agentStep_config Config.params s.turnTaken s.turn
    exact ⟨.inl (hclk.trans (congrArg _ s.turnTaken_hw)), .inl (hser.trans (congrArg _ s.turnTaken_hw))⟩

/-! ### Reads (R43) -/

theorem nextInstr_eq_some (h : s.nextInstr = some i) :
    s.turn = .host ∧ ∃ op rest, s.host = op :: rest ∧ decode op.request = .ok i := by
  unfold State.nextInstr at h
  split at h
  next op rest hturn hhost =>
    split at h
    next j hj =>
      cases h
      exact ⟨hturn, op, rest, hhost, hj⟩
    · cases h
  · cases h

/-- Settles O33: a read in a live state changes the result, the bus log and the program. -/
theorem readsHaveNoSideEffect : Obligations.ReadsHaveNoSideEffect := by
  intro s t i h hu hi hd
  obtain ⟨hturn, op, rest, hhost, hdec⟩ := nextInstr_eq_some hi
  have hr := refused_of_host_step h hturn hhost
  obtain ⟨image, himage, -⟩ := exists_readImage_of_dir_read hd
  cases (step_read ⟨hu, hr⟩ hturn hhost hdec himage).symm.trans h
  exact ⟨s.turnTaken_hw, s.turnTaken_txlog, s.turnTaken_pinlog, s.turnTaken_undef.trans hu,
    s.turnTaken_refused.trans hr⟩

/-! ### Slots (R124, R149) -/

/-- Settles O35: only a source tick starts slots, one serial clock period at most. -/
theorem wordsGoOutInTheirSlot : Obligations.WordsGoOutInTheirSlot := by
  intro s t h
  cases step_effect h with
  | unspecified _ _ _ htx | kept _ _ _ _ htx | written _ _ _ _ _ _ _ htx | faulted _ _ _ _ _ _ _ _ _ htx =>
    exact .inl htx
  | agent _ hturn _ he =>
    subst he
    cases hturn' : s.turn with
    | host => exact absurd hturn' hturn
    | cgSync | sync => exact .inl s.turnTaken_txlog
    | srcTick src =>
      rw [State.agentStep]
      obtain ⟨cnt, he | he⟩ := srcTick_cases Config.params src s.turnTaken <;> rw [he]
      · obtain ⟨htx, -⟩ | ⟨slot, htx, -, hur⟩ | ⟨x, hx, htx, hhold, -⟩ := sckTick_slot Config.params s.turnTaken <;>
          rw [s.turnTaken_txlog] at htx
        · exact .inl htx
        · exact .inr (.inl ⟨slot, htx, hur⟩)
        · rw [s.turnTaken_hw] at hx
          exact .inr (.inr ⟨x.slot, x.word, hx, htx, hhold⟩)
      · exact .inl s.turnTaken_txlog

/-! ### Agents while no enable item is pending (R174) -/

/-- What every agent keeps while no enable item is pending: nothing becomes effective, and TXRDY0 stays 1. -/
structure Undisturbed (h h' : Hardware) : Prop where
  eff : h'.eff = h.eff
  ensync : h'.pend.anyEnsync = false
  ready : h.txrdy0 = true → h'.txrdy0 = true

theorem undisturbed_refl {h : Hardware} (hq : h.pend.anyEnsync = false) : Undisturbed h h := ⟨rfl, hq, id⟩

theorem undisturbed_cgSync {h : Hardware} (hq : h.pend.anyEnsync = false) : Undisturbed h h.cgSync := by
  rw [cgSync_frame]
  exact ⟨rfl, hq, id⟩

/-- The items that may be pending then are DATA0, which is not while TXRDY0 reads 1, and the configuration's. -/
theorem undisturbed_syncItem {h : Hardware} {item : Item} (draw : Word) (hq : h.pend.anyEnsync = false)
    (hp : h.pend.has item = true) : Undisturbed h (h.syncItem draw item) := by
  cases item
  case enable | cken0 | seren0 => simp_all [Pend.anyEnsync, Pend.has]
  case data0 =>
    refine ⟨rfl, hq, fun hr => ?_⟩
    obtain ⟨-, -, -, hd⟩ := (txrdy0_iff h).1 hr
    exact absurd (hd.symm.trans hp) Bool.false_ne_true
  case clkctrl0 | serctrl0 => exact ⟨rfl, hq, id⟩

/-- A serial clock period empties the holding register or leaves it, so that it never lowers TXRDY0. -/
theorem undisturbed_sckTick (p : Config.Params) (hq : s.hw.pend.anyEnsync = false) :
    Undisturbed s.hw (s.sckTick p).hw := by
  obtain ⟨hf, -⟩ := sckTick_frame p s
  have hpend : (s.sckTick p).hw.pend = s.hw.pend := by rw [hf]
  refine ⟨sckTick_eff p s, hpend ▸ hq, fun hr => ?_⟩
  rw [txrdy0_iff] at hr ⊢
  obtain ⟨hen, hse, hhold, hd⟩ := hr
  rw [sckTick_eff, hpend]
  refine ⟨hen, hse, ?_, hd⟩
  obtain ⟨-, he, -⟩ | ⟨-, -, he, -⟩ | ⟨-, -, -, he, -⟩ := sckTick_slot p s
  · exact he.trans hhold
  · exact he.trans hhold
  · exact he

theorem undisturbed_srcTick (p : Config.Params) (src : BitVec 4) (hq : s.hw.pend.anyEnsync = false) :
    Undisturbed s.hw (s.srcTick p src).hw := by
  obtain ⟨cnt, he | he⟩ := srcTick_cases p src s <;> rw [he]
  · obtain ⟨heff, hen, hr⟩ := undisturbed_sckTick p hq
    exact ⟨heff, hen, hr⟩
  · exact ⟨rfl, hq, id⟩

/-- A step of an agent while no enable item is pending. -/
theorem undisturbed_step (h : step s = .next t) (ht : s.turn ≠ .host) (hu : s.undef = false)
    (hq : s.hw.pend.anyEnsync = false) : Undisturbed s.hw t.hw := by
  cases he : s.enabled Config.params s.turn with
  | false =>
    cases (step_agent_idle ht hu he).symm.trans h
    rw [State.turnTaken_hw]
    exact undisturbed_refl hq
  | true =>
    cases (step_agent_enabled ht hu he).symm.trans h
    cases hturn : s.turn with
    | host => exact absurd hturn ht
    | cgSync =>
      rw [State.agentStep, State.turnTaken_hw]
      exact undisturbed_cgSync hq
    | sync item =>
      rw [hturn, State.enabled, Bool.and_eq_true] at he
      rw [State.agentStep, State.turnTaken_hw]
      exact undisturbed_syncItem _ hq he.2
    | srcTick src =>
      have := undisturbed_srcTick (s := s.turnTaken) Config.params src (by rwa [State.turnTaken_hw])
      rwa [State.turnTaken_hw] at this

/-- An agent's step keeps the marks and the HOST's program. -/
theorem agent_step_outside (h : step s = .next t) (ht : s.turn ≠ .host) :
    t.undef = s.undef ∧ t.refused = s.refused ∧ t.host = s.host := by
  cases (step_agent ht).symm.trans h
  obtain ⟨hu, -, hr, -, -, -, hh, -, -⟩ := sameOutside_agentTurn Config.params s.turnTaken s.turn
  exact ⟨hu.trans s.turnTaken_undef, hr.trans s.turnTaken_refused, hh.trans s.turnTaken_host⟩

/-- Settles O36: no agent lowers TXRDY0 while no enable item is pending, and none raises a fault. -/
theorem readyStaysUntilHostWrites : Obligations.ReadyStaysUntilHostWrites := by
  intro s t h ht hu hq hr
  obtain ⟨hundef, -⟩ := agent_step_outside h ht
  exact ⟨(undisturbed_step h ht hu hq).ready hr, hundef.trans hu⟩

end

end Sys2Proof.Machine

/-! Proofs about the software around the driver: the decode of a buffer and the passes of the playback loop
(spec/45_driver_sequences.md R178, R180). -/

namespace Sys2Proof.Machine

open Sys2Proof

section
variable {s t : State}

/-! ### The decode (R178) -/

/-- A sample's bytes, low byte first, are the sample's halves (R49). -/
theorem samplePairs_flatMap (xs : List (BitVec 16)) :
    samplePairs (xs.flatMap fun x => [x.extractLsb' 0 8, x.extractLsb' 8 8]) = xs := by
  induction xs with
  | nil => rfl
  | cons x xs ih =>
    have hx : x.extractLsb' 8 8 ++ x.extractLsb' 0 8 = x := by
      rw [BitVec.extractLsb'_append_extractLsb'_eq_extractLsb' (by decide)]
      exact BitVec.extractLsb'_eq_self
    rw [List.flatMap_cons, List.cons_append, List.cons_append, List.nil_append, samplePairs, hx, ih]

/-- Settles O53: the header is skipped, and the rest is even and split into its samples. -/
theorem decodedSamplesAreTheOriginals : Obligations.DecodedSamplesAreTheOriginals := by
  intro header xs hh
  have hlen : (xs.flatMap fun x => [x.extractLsb' 0 8, x.extractLsb' 8 8]).length = 2 * xs.length := by
    simp [List.length_flatMap, Nat.mul_comm]
  rw [decodeSamples, headerLength, if_neg, List.drop_left' hh, samplePairs_flatMap]
  rw [List.length_append, hh, hlen]
  omega

/-- Settles O54: such a buffer has no decode. -/
theorem malformedBufferRefused : Obligations.MalformedBufferRefused := by
  intro s buf trigger h
  have hnone : decodeSamples buf = none := by
    rw [decodeSamples, if_pos]
    rw [headerLength]
    omega
  simp only [State.startPlayback, hnone]
  rfl

/-! ### The playback loop (R180) -/

theorem playbackPass_of_player {x : Player} (hp : s.player = some x) {active : Bool}
    (ha : x.triggered (Config.freeTrigger s.fresh) = active) :
    s.playbackPass =
      { s with host := x.calls active, player := some (x.passed active), fresh := s.fresh + 1 } := by
  simp only [State.playbackPass, hp, ha]

/-- Settles O57: the pass made in the HOST's turn, by what the trigger's input says. -/
theorem playbackPassWritesTheNextSample : Obligations.PlaybackPassWritesTheNextSample := by
  intro s x v ht hh hp hv
  have hp' : s.turnTaken.player = some x := s.turnTaken_player.trans hp
  have hcalls : x.calls true = driverWrite (widen v) (widen v) := by
    simp only [Player.calls, Player.nextSample, hv]
  rw [step_host_nil ht hh]
  refine ⟨fun later hl => ?_, fun bs hb => ?_⟩
  · have ha : x.triggered (Config.freeTrigger s.turnTaken.fresh) = true ∧ x.laterTrigger = later := by
      obtain ⟨hn, rfl⟩ | ⟨bs, hb, rfl⟩ := hl
      · simp [Player.triggered, Player.laterTrigger, hn]
      · simp [Player.triggered, Player.laterTrigger, hb]
    rw [playbackPass_of_player hp' ha.1, hcalls, Player.passed, ha.2]
    rfl
  · have ha : x.triggered (Config.freeTrigger s.turnTaken.fresh) = false := by simp [Player.triggered, hb]
    have hhost : x.calls false = s.turnTaken.host := by rw [s.turnTaken_host, hh]; rfl
    rw [playbackPass_of_player hp' ha, hhost, Player.passed, Player.laterTrigger, hb]
    rfl

/-- A pass keeps the samples and whether there is a trigger, and pulls one sample at most. -/
theorem passed_keeps (x : Player) (active : Bool) :
    (x.passed active).samples = x.samples ∧ ((x.passed active).trigger = none ↔ x.trigger = none) ∧
      ((x.passed active).pulled = x.pulled ∨ (x.passed active).pulled = x.pulled + 1) := by
  refine ⟨rfl, Option.map_eq_none_iff, ?_⟩
  cases active
  · exact .inl rfl
  · exact .inr rfl

/-- Settles O58: only a pass changes the loop's variables. -/
theorem playbackNeverEnds : Obligations.PlaybackNeverEnds := by
  intro s t x h hp
  have hp' : s.turnTaken.player = some x := s.turnTaken_player.trans hp
  obtain ⟨ht, hh, rfl⟩ | ⟨op, rest, u, -, -, hrun, rfl⟩ | ⟨-, rfl⟩ := step_next h
  · rw [playbackPass_of_player hp' rfl]
    obtain ⟨hs, htr, hpulled⟩ := passed_keeps x (x.triggered (Config.freeTrigger s.turnTaken.fresh))
    exact ⟨_, rfl, hs, htr, .inr ⟨ht, hh, hpulled⟩⟩
  · obtain ⟨-, hu⟩ := runRequest_inputs hrun
    exact ⟨x, hu.trans hp', rfl, .rfl, .inl rfl⟩
  · obtain ⟨-, -, -, -, -, -, -, -, hu⟩ := sameOutside_agentTurn Config.params s.turnTaken s.turn
    exact ⟨x, hu.trans hp', rfl, .rfl, .inl rfl⟩

end

end Sys2Proof.Machine

/-! Proofs about the invariant: it holds at reset, every accepted write and every agent's step keeps the hardware's part
of it, and the pin log agrees with the shift register throughout (spec/10_state.md sections 4, 5 and 7;
spec/44_agents_timing_serializer.md section 1). -/

namespace Sys2Proof.Machine

open Sys2Proof

section
variable {p : Config.Params} {s t : State} {i : Instr} {h h' : Hardware}

/-! ### At reset (R35) -/

/-- Settles O8: field by field, the tables by their replicated entry. -/
theorem resetState : Obligations.ResetState :=
  ⟨rfl, rfl, rfl, rfl, rfl, rfl, rfl, rfl, rfl, rfl, rfl, rfl, rfl, rfl,
    fun g => Vector.getElem_replicate g.isLt, fun c => Vector.getElem_replicate c.isLt,
    fun g => Vector.getElem_replicate g.isLt, rfl, rfl, rfl, rfl, rfl⟩

theorem inv_reset (hp : 1 ≤ p.nGen) : Hardware.reset.Inv p where
  cgBusy := by simp [Hardware.CgBusyExact, Hardware.reset]
  dividers := ⟨by simp [Hardware.reset], nofun⟩
  tables := ⟨fun g hg => by simp [Hardware.reset] at hg, fun c => by simpa [Hardware.reset] using Nat.lt_of_succ_le hp, nofun, nofun⟩
  eff := ⟨fun _ => rfl, fun _ => rfl, fun _ => rfl⟩
  config := nofun
  reference := nofun
  data := ⟨nofun, nofun⟩
  frame := fun ht => absurd rfl ht
  word := nofun

/-- Settles O9: the hardware's part field by field; nothing is logged and no mark is set. -/
theorem resetMeetsInvariant : Obligations.ResetMeetsInvariant :=
  ⟨by decide, by decide, fun _ => ⟨inv_reset Config.nGen_pos, nofun⟩⟩

/-! ### Writes -/

/-- Where the ASC is fully disabled it is not active. -/
theorem ascActive_of_notFullyDisabled (hoff : h.notFullyDisabled = false) : h.ascActive = false :=
  (Bool.or_eq_false_iff.1 hoff).1

/-- A write that its rule accepts keeps the hardware's invariant. -/
theorem Accepted.inv (ha : Accepted p h i h') (hi : h.Inv p) : h'.Inv p := by
  obtain ⟨hcg, hdiv, htab, heff, hcfg, href, hdata, hframe, hword⟩ := hi
  obtain ⟨hgen, hchan, hpgen, hproute⟩ := htab
  cases ha with
  | ctrla w hen hcfg' href' =>
    refine ⟨hcg, hdiv, ⟨hgen, hchan, hpgen, hproute⟩, ⟨nofun, nofun, nofun⟩, fun hc => ?_, fun ha => ?_, hdata, hframe,
      hword⟩
    · exact absurd (hcfg'.symm.trans hc) Bool.false_ne_true
    · obtain ha | ha := Bool.or_eq_true_iff.1 ha
      · exact href' ha
      · exact href (Bool.or_eq_true_iff.2 (.inr ha))
  | clkctrl0 w hoff | serctrl0 w hoff =>
    have hidle := ascActive_of_notFullyDisabled hoff
    exact ⟨hcg, hdiv, ⟨hgen, hchan, hpgen, hproute⟩, heff, fun _ => hoff,
      fun ha => absurd (hidle.symm.trans ha) Bool.false_ne_true, hdata, hframe, hword⟩
  | intflag w => exact ⟨hcg, hdiv, ⟨hgen, hchan, hpgen, hproute⟩, heff, hcfg, href, hdata, hframe, hword⟩
  | data0 w hready =>
    obtain ⟨hen, hse, hhold, -⟩ := (txrdy0_iff h).1 hready
    have hrun : h.serRun = true := by rw [Hardware.serRun, hen, hse]; rfl
    refine ⟨hcg, hdiv, ⟨hgen, hchan, hpgen, hproute⟩, heff, hcfg, href,
      ⟨fun _ => ⟨hrun, hhold, rfl⟩, fun x hx => ?_⟩, hframe, hword⟩
    exact absurd (hhold.symm.trans hx) nofun
  | gencfg w hidle hrange =>
    obtain ⟨hd, hg, hs⟩ : gencfgDiv w ≠ 0 ∧ (gencfgId w).toNat < p.nGen ∧ (gencfgSrc w).toNat < p.nSrc := by
      simpa [not_or] using (gencfgOutOfRange_iff p w).not.1 (Bool.eq_false_iff.1 hrange)
    refine ⟨⟨nofun, fun _ => rfl⟩, ⟨hdiv.1, fun v hv => ?_⟩, ⟨hgen, hchan, fun v hv => ?_, nofun⟩, heff, hcfg, href,
      hdata, hframe, hword⟩ <;> cases hv
    · exact hd
    · exact ⟨hg, hs⟩
  | clkroute w hidle hrange =>
    have hg : (clkrouteGen w).toNat < p.nGen := by
      simpa using (clkrouteOutOfRange_iff p w).not.1 (Bool.eq_false_iff.1 hrange)
    refine ⟨⟨nofun, fun _ => rfl⟩, ⟨hdiv.1, nofun⟩, ⟨hgen, hchan, nofun, fun v hv => ?_⟩, heff, hcfg, href, hdata,
      hframe, hword⟩
    cases hv
    exact hg

/-- No write changes what the pin log has to agree with. -/
theorem Accepted.serializer (ha : Accepted p h i h') :
    h'.serRun = h.serRun ∧ h'.serBegun = h.serBegun ∧ h'.sh = h.sh := by
  cases ha <;> exact ⟨rfl, rfl, rfl⟩

/-! ### CGSYNC (R85) -/

/-- CGSYNC keeps the hardware's invariant: the entry it writes is in range, and a generator's phase restarts. -/
theorem inv_cgSync (hi : h.Inv p) : h.cgSync.Inv p := by
  obtain ⟨-, ⟨hcnt, hdiv⟩, ⟨hgen, hchan, hpgen, hproute⟩, heff, hcfg, href, hdata, hframe, hword⟩ := hi
  have hbusy : h.cgSync.CgBusyExact := ⟨nofun, fun hn => absurd rfl hn⟩
  cases hp : h.cgpend with
  | none =>
    have he : h.cgSync = { h with cgpend := .none, cgbusy := false } := by
      simp only [Hardware.cgSync, Hardware.applyCgPend, hp]
    rw [he] at hbusy ⊢
    exact ⟨hbusy, ⟨hcnt, nofun⟩, ⟨hgen, hchan, nofun, nofun⟩, heff, hcfg, href, hdata, hframe, hword⟩
  | gen v =>
    rw [cgSync_of_gen hp] at hbusy ⊢
    refine ⟨hbusy, ⟨fun g => ?_, nofun⟩, ⟨fun g hg => ?_, hchan, nofun, nofun⟩, heff, hcfg, href, hdata, hframe, hword⟩
    · rw [getElem_fin_set, getElem_fin_set]
      split
      · exact Nat.pos_of_ne_zero fun h0 => hdiv v hp (BitVec.eq_of_toNat_eq h0)
      · exact hcnt g
    · rw [getElem_fin_set] at hg ⊢
      split at hg
      next hid =>
        rw [if_pos hid, hid]
        exact hpgen v hp
      next hid =>
        rw [if_neg hid]
        exact hgen g hg
  | route v =>
    rw [cgSync_of_route hp] at hbusy ⊢
    refine ⟨hbusy, ⟨hcnt, nofun⟩, ⟨hgen, fun c => ?_, nofun, nofun⟩, heff, hcfg, href, hdata, hframe, hword⟩
    rw [getElem_fin_set]
    split
    · exact hproute v hp
    · exact hchan c

/-! ### SYNC (R141 to R146) -/

/-- RUN_EDGES keeps R145's invariants of the data path. `h` is `h₀` with an effective enable changed. -/
theorem dataPath_runEdges {h₀ h : Hardware} (draw : Word) (hd : h₀.DataPath)
    (hp : h.pend.data0 = h₀.pend.data0) (hh : h.hold = h₀.hold) (hw : h.wslot = h₀.wslot)
    (ht : h.datatag = h₀.datatag) : (h.runEdges draw h₀.clkRun h₀.serRun).DataPath := by
  have hrun : (h.runEdges draw h₀.clkRun h₀.serRun).serRun = h.serRun := by rw [runEdges_eq_ite]; rfl
  unfold Hardware.DataPath at *
  rw [hrun, runEdges_eq_ite]
  dsimp only
  cases a : h.serRun <;> cases b : h₀.serRun <;> simp_all [Pend.drop, Pend.put]

/-- RUN_EDGES keeps that a frame position other than 0 comes with a period of the clock unit's run. -/
theorem frameBegun_runEdges {h₀ h : Hardware} (draw : Word) (hf : h₀.FrameBegun) (ht : h.t = h₀.t)
    (hb : h.begun = h₀.begun) : (h.runEdges draw h₀.clkRun h₀.serRun).FrameBegun := by
  unfold Hardware.FrameBegun at *
  rw [runEdges_eq_ite]
  dsimp only
  split <;> simp_all

theorem runEdges_pend_has (h : Hardware) (draw : Word) (oldClk oldSer : Bool) {item : Item} (hi : item ≠ .data0) :
    (h.runEdges draw oldClk oldSer).pend.has item = h.pend.has item := by
  rw [runEdges_eq_ite]
  dsimp only
  split
  · rw [Pend.has_drop, if_neg hi.symm]
  · rfl

/-- RUN_EDGES drops no enable item. -/
theorem effFollows_runEdges (draw : Word) (oldClk oldSer : Bool) (hf : h.EffFollows) :
    (h.runEdges draw oldClk oldSer).EffFollows := by
  obtain ⟨hen, hck, hse⟩ := hf
  have heff : (h.runEdges draw oldClk oldSer).eff = h.eff ∧ (h.runEdges draw oldClk oldSer).ctrla = h.ctrla := by
    rw [runEdges_eq_ite]
    exact ⟨rfl, rfl⟩
  rw [Hardware.EffFollows, heff.1, heff.2]
  exact ⟨fun hp => hen ((runEdges_pend_has h draw oldClk oldSer (item := .enable) (by decide)).symm.trans hp),
    fun hp => hck ((runEdges_pend_has h draw oldClk oldSer (item := .cken0) (by decide)).symm.trans hp),
    fun hp => hse ((runEdges_pend_has h draw oldClk oldSer (item := .seren0) (by decide)).symm.trans hp)⟩

theorem anyCfgsync_runEdges (h : Hardware) (draw : Word) (oldClk oldSer : Bool) :
    (h.runEdges draw oldClk oldSer).pend.anyCfgsync = h.pend.anyCfgsync :=
  congrArg₂ (· || ·) (runEdges_pend_has h draw oldClk oldSer (item := .clkctrl0) (by decide))
    (runEdges_pend_has h draw oldClk oldSer (item := .serctrl0) (by decide))

/-- No enable bit is effective after a SYNC that was neither written nor effective before. -/
theorem any_effAfter {item : Item} (h : Hardware) (ha : (h.effAfter item).any = true) : h.ascActive = true := by
  unfold Hardware.ascActive
  cases item <;> simp only [Hardware.effAfter, Enables.any, Bool.or_eq_true] at ha ⊢ <;> tauto

/-- SYNC of an enable item keeps the hardware's invariant. -/
theorem inv_syncEnsync (draw : Word) {item : Item} (hi : h.Inv p) (hp : h.pend.has item = true)
    (hitem : item = .enable ∨ item = .cken0 ∨ item = .seren0) : (h.syncItem draw item).Inv p := by
  obtain ⟨hcg, hdiv, htab, heff, hcfg, href, hdata, hframe, hword⟩ := hi
  have hquiet : h.pend.anyCfgsync = false := by
    by_contra hc
    have hoff := hcfg (by simpa using hc)
    obtain rfl | rfl | rfl := hitem <;> simp_all [Hardware.notFullyDisabled, Pend.anyEnsync, Pend.has]
  rw [syncItem_eq draw h (by obtain rfl | rfl | rfl := hitem <;> decide)]
  have hpend : (h.pend.drop item).data0 = h.pend.data0 := by obtain rfl | rfl | rfl := hitem <;> rfl
  refine ⟨?_, ?_, ?_, ?_, fun hc => ?_, fun ha => ?_, dataPath_runEdges draw hdata hpend rfl rfl rfl,
    frameBegun_runEdges draw hframe rfl rfl, wordBegun_runEdges draw hword rfl rfl⟩
  · rw [runEdges_eq_ite]
    exact hcg
  · rw [runEdges_eq_ite]
    exact hdiv
  · rw [runEdges_eq_ite]
    exact htab
  · refine effFollows_runEdges draw _ _ ?_
    obtain rfl | rfl | rfl := hitem <;> simp_all [Hardware.EffFollows, Hardware.effAfter, Pend.drop, Pend.put]
  · rw [anyCfgsync_runEdges] at hc
    obtain rfl | rfl | rfl := hitem <;> exact absurd (hquiet.symm.trans hc) Bool.false_ne_true
  · rw [runEdges_eq_ite] at ha ⊢
    obtain ha | ha := Bool.or_eq_true_iff.1 ha
    · exact href (Bool.or_eq_true_iff.2 (.inl ha))
    · exact href (any_effAfter h ha)

/-- SYNC keeps the hardware's invariant. -/
theorem inv_syncItem (draw : Word) {item : Item} (hi : h.Inv p) (hp : h.pend.has item = true) :
    (h.syncItem draw item).Inv p := by
  cases item
  case enable | cken0 | seren0 => exact inv_syncEnsync draw hi hp (by simp)
  case data0 =>
    obtain ⟨hcg, hdiv, htab, heff, hcfg, href, ⟨hpend, -⟩, hframe, hword⟩ := hi
    obtain ⟨hrun, -, hslot⟩ := hpend hp
    refine ⟨hcg, hdiv, htab, heff, hcfg, href, ⟨nofun, fun x hx => ?_⟩, hframe, hword⟩
    cases hx
    exact ⟨hrun, rfl, hslot⟩
  case clkctrl0 | serctrl0 =>
    obtain ⟨hcg, hdiv, htab, heff, hcfg, href, hdata, hframe, hword⟩ := hi
    refine ⟨hcg, hdiv, htab, heff, fun hc => hcfg ?_, href, hdata, hframe, hword⟩
    simp_all [Hardware.syncItem, Pend.anyCfgsync, Pend.drop, Pend.put]

/-! ### Source ticks (R87, R148) -/

/-- A serial clock period keeps the hardware's invariant: it empties the holding register or leaves it. -/
theorem inv_sckTick (hi : s.hw.Inv p) : (s.sckTick p).hw.Inv p := by
  have hword := wordBegun_sckTick p s
  obtain ⟨hf, -⟩ := sckTick_frame p s
  have hhold : ∀ x, (s.sckTick p).hw.hold = some x → s.hw.hold = some x := by
    intro x hx
    obtain ⟨-, he, -⟩ | ⟨-, -, he, -⟩ | ⟨-, -, -, he, -⟩ := sckTick_slot p s
    · exact he.symm.trans hx
    · exact he.symm.trans hx
    · exact absurd (he.symm.trans hx) nofun
  obtain ⟨hcg, hdiv, htab, heff, hcfg, href, ⟨hpend, hheld⟩, -, -⟩ := hi
  rw [hf] at hword ⊢
  refine ⟨hcg, hdiv, htab, heff, hcfg, href, ⟨fun hp => ?_, fun x hx => hheld x (hhold x hx)⟩, fun _ => rfl, hword⟩
  obtain ⟨hrun, hnone, hslot⟩ := hpend hp
  refine ⟨hrun, Option.eq_none_iff_forall_ne_some.2 fun x hx => ?_, hslot⟩
  exact absurd (hnone.symm.trans (hhold x hx)) nofun

/-- The phases after a tick stay below their divisors. -/
theorem phaseAfter_lt {src : BitVec 4} {g : Fin 16} (hlt : h.cnt[g] < h.gen[g].div.toNat) :
    h.phaseAfter p src g < h.gen[g].div.toNat := by
  unfold Hardware.phaseAfter
  split
  · split
    · exact Nat.zero_lt_of_lt hlt
    · omega
  · exact hlt

/-- Other phases keep the invariant where they stay below their divisors. -/
theorem inv_withCnt {cnt : Vector Nat 16} (hi : s.hw.Inv p) (hc : ∀ g : Fin 16, cnt[g] < s.hw.gen[g].div.toNat) :
    (s.withCnt cnt).hw.Inv p := by
  obtain ⟨hcg, ⟨-, hdiv⟩, htab, heff, hcfg, href, hdata, hframe, hword⟩ := hi
  exact ⟨hcg, ⟨hc, hdiv⟩, htab, heff, hcfg, href, hdata, hframe, hword⟩

/-- A source tick keeps the hardware's invariant. -/
theorem inv_srcTick (src : BitVec 4) (hi : s.hw.Inv p) : (s.srcTick p src).hw.Inv p := by
  obtain ⟨cnt, hc, he⟩ := srcTick_eq p src s
  have hlt (g : Fin 16) : cnt[g] < s.hw.gen[g].div.toNat := hc g ▸ phaseAfter_lt (hi.dividers.1 g)
  obtain ⟨-, he⟩ | ⟨-, he⟩ := he <;> rw [he]
  · exact inv_withCnt (inv_sckTick hi) (by rwa [sckTick_gen])
  · exact inv_withCnt hi hlt

/-- A source tick keeps that the pin log agrees with the shift register. -/
theorem bitsLoaded_srcTick (p : Config.Params) (src : BitVec 4) (hb : s.BitsLoaded) : (s.srcTick p src).BitsLoaded := by
  obtain ⟨cnt, he | he⟩ := srcTick_cases p src s <;> rw [he]
  · exact bitsLoaded_sckTick p s
  · exact hb

/-! ### Every step -/

/-- The step of an agent that is enabled keeps the invariant of a fault-free state. -/
theorem inv_agentStep {turn : Turn} (hi : s.hw.Inv p) (hb : s.BitsLoaded) (he : s.enabled p turn = true) :
    (s.agentStep p turn).hw.Inv p ∧ (s.agentStep p turn).BitsLoaded := by
  cases turn with
  | host => exact ⟨hi, hb⟩
  | cgSync =>
    refine ⟨inv_cgSync hi, ?_⟩
    rw [State.agentStep, cgSync_frame]
    exact hb
  | sync item =>
    rw [State.enabled, Bool.and_eq_true] at he
    exact ⟨inv_syncItem _ hi he.2, bitsLoaded_syncItem _ _ hb⟩
  | srcTick src => exact ⟨inv_srcTick src hi, bitsLoaded_srcTick p src hb⟩

/-- Two states with the same serializer and the same pin log. -/
theorem bitsLoaded_congr (hr : t.hw.serRun = s.hw.serRun) (hg : t.hw.serBegun = s.hw.serBegun)
    (hs : t.hw.sh = s.hw.sh) (hl : t.pinlog = s.pinlog) (hb : s.BitsLoaded) : t.BitsLoaded := by
  unfold State.BitsLoaded at *
  rwa [hr, hg, hs, hl]

/-- In a fault-free state every step keeps the hardware's invariant and the pin log's. -/
theorem inv_step_hw (h : step s = .next t) (ht : t.undef = false)
    (hi : s.hw.Inv Config.params) (hb : s.BitsLoaded) : t.hw.Inv Config.params ∧ t.BitsLoaded := by
  cases step_effect h with
  | unspecified _ hundef | faulted _ hundef => exact absurd (ht.symm.trans hundef) Bool.false_ne_true
  | kept _ _ _ hhw _ hpin => exact ⟨hhw ▸ hi, bitsLoaded_congr (by rw [hhw]) (by rw [hhw]) (by rw [hhw]) hpin hb⟩
  | written _ _ _ i _ _ ha _ hpin =>
    obtain ⟨hr, hg, hsh⟩ := ha.serializer
    exact ⟨ha.inv hi, bitsLoaded_congr hr hg hsh hpin hb⟩
  | agent _ _ hen he =>
    subst he
    refine inv_agentStep (s.turnTaken_hw.symm ▸ hi) ?_ ((enabled_turnTaken _ s _).trans hen)
    have hhw := s.turnTaken_hw
    exact bitsLoaded_congr (by rw [hhw]) (by rw [hhw]) (by rw [hhw]) s.turnTaken_pinlog hb

/-- A step keeps that the fault mark comes with its cause. -/
theorem cause_step (h : step s = .next t) (hm : s.undef = true ↔ s.cause.isSome = true) :
    t.undef = true ↔ t.cause.isSome = true := by
  cases step_effect h with
  | unspecified hs hundef hcause | kept hs hundef hcause | written hs hundef hcause =>
    rw [hcause, ← hm, hundef, hs]
  | faulted _ hundef _ _ _ _ _ _ hcause => simp [hundef, hcause]
  | agent _ _ _ he =>
    subst he
    obtain ⟨hundef, hcause⟩ := agentStep_marks s s.turn
    rwa [hundef, hcause]

theorem apply_refused_iff (sel : BitVec 10) (w : Word) (v : Verdict)
    (hm : s.refused = true ↔ s.reason.isSome = true) :
    (s.apply sel w v).refused = true ↔ (s.apply sel w v).reason.isSome = true := by
  cases v <;> simp_all

/-- A step keeps that the refusal mark comes with its reason. -/
theorem reason_step (h : step s = .next t) (hm : s.refused = true ↔ s.reason.isSome = true) :
    t.refused = true ↔ t.reason.isSome = true := by
  have hm' : s.turnTaken.refused = true ↔ s.turnTaken.reason.isSome = true := by
    rwa [State.turnTaken_refused, State.turnTaken_reason]
  obtain ⟨-, -, rfl⟩ | ⟨op, rest, u, -, -, hrun, rfl⟩ | ⟨-, rfl⟩ := step_next h
  · rwa [State.playbackPass_refused, State.playbackPass_reason]
  · obtain ⟨-, ⟨-, rfl⟩ | ⟨-, ⟨x, rfl⟩ | ⟨i, image, -, -, rfl⟩ | ⟨i, w, rule, -, -, -, -, rfl⟩⟩⟩ := runRequest_next hrun
    · exact hm'
    · exact ⟨fun _ => rfl, fun _ => rfl⟩
    · exact hm'
    · exact apply_refused_iff _ _ _ hm'
  · obtain ⟨-, -, hr, hx, -⟩ := sameOutside_agentTurn Config.params s.turnTaken s.turn
    rwa [hr, hx]

/-- Settles O34: the marks with their codes, and in a fault-free state the hardware's part by the effect of the
step. -/
theorem everyStepKeepsInvariant : Obligations.EveryStepKeepsInvariant := by
  intro s t ⟨hcause, hreason, hlive⟩ h
  refine ⟨cause_step h hcause, reason_step h hreason, fun ht => ?_⟩
  have hs : s.undef = false := by
    by_contra hs
    obtain ⟨hundef, -⟩ := (marksAreSticky s t h).1 (by simpa using hs)
    exact absurd (ht.symm.trans hundef) Bool.false_ne_true
  obtain ⟨hi, hb⟩ := hlive hs
  exact inv_step_hw h ht hi hb

end

end Sys2Proof.Machine

/-! Proofs about the hangs and the driver's `write`: each is a predicate on states that every step of every agent keeps,
until the word is accepted (spec/60_exceptions.md R209; spec/45_driver_sequences.md R174). -/

namespace Sys2Proof.Machine

open Sys2Proof

section
variable {s t u : State} {rest : List HostOp} {k : Nat}

/-! ### Runs -/

/-- A run of `k + 1` steps that answers a state starts with a step that does. -/
theorem run_succ_next (h : core.run (k + 1) s = .next u) : ∃ t, step s = .next t ∧ core.run k t = .next u := by
  cases hs : core.step s with
  | next t => exact ⟨t, hs, (run_succ_of (M := core) hs).symm.trans h⟩
  | fault f | refused r =>
    simp only [Host.Core.run, hs] at h
    cases h

/-- What every step keeps, a run keeps. -/
theorem run_induct {P : State → Prop} (hP : ∀ s t, P s → step s = .next t → P t) (hs : P s)
    (h : core.run k s = .next u) : P u := by
  induction k generalizing s with
  | zero =>
    cases h
    exact hs
  | succ k ih =>
    obtain ⟨t, ht, hrun⟩ := run_succ_next h
    exact ih (hP s t hs ht) hrun

theorem State.Live.turnTaken (hl : s.Live) : s.turnTaken.Live :=
  ⟨s.turnTaken_undef.trans hl.1, s.turnTaken_refused.trans hl.2⟩

/-- An agent's step leaves a live state live, with the HOST's program. -/
theorem live_agent_step (h : step s = .next t) (ht : s.turn ≠ .host) (hl : s.Live) : t.Live ∧ t.host = s.host := by
  obtain ⟨hu, hr, hh⟩ := agent_step_outside h ht
  exact ⟨⟨hu.trans hl.1, hr.trans hl.2⟩, hh⟩

/-! ### A POLL without the ASC's clock (R209) -/

/-- Without the ASC's clock and without a CG write pending, only source ticks happen, and nothing completes. -/
theorem unclocked_step (h : step s = .next t) (ht : s.turn ≠ .host) (hu : s.undef = false)
    (hp : s.hw.cgpend = .none) (hc : s.hw.ascClkOn Config.params = false) :
    t.hw.pend = s.hw.pend ∧ t.hw.cgpend = .none ∧ t.hw.ascClkOn Config.params = false := by
  cases he : s.enabled Config.params s.turn with
  | false =>
    cases (step_agent_idle ht hu he).symm.trans h
    rw [State.turnTaken_hw]
    exact ⟨rfl, hp, hc⟩
  | true =>
    cases (step_agent_enabled ht hu he).symm.trans h
    cases hturn : s.turn with
    | host => exact absurd hturn ht
    | cgSync => simp [hturn, State.enabled, hp] at he
    | sync item => simp [hturn, State.enabled, hc] at he
    | srcTick src =>
      rw [State.agentStep, srcTick_frame, State.turnTaken_hw]
      exact ⟨rfl, hp, hc⟩

/-- The HOST polls SYNCBUSY for 0 while items are pending that cannot complete. -/
structure PollHangs (rest : List HostOp) (pend : Pend) (s : State) : Prop where
  live : s.Live
  cgpend : s.hw.cgpend = .none
  clock : s.hw.ascClkOn Config.params = false
  pending : s.hw.pend = pend
  host : s.host = pollSync :: rest

/-- A POLL of SYNCBUSY for 0 goes on while something is pending. -/
theorem syncbusy_poll_goes_on {h : Hardware} (hp : ∃ i, h.pend.has i = true) :
    ¬syncbusyImage h &&& 0xFFFFFFFF = 0 := by
  obtain ⟨i, hi⟩ := hp
  rw [show (0xFFFFFFFF : Word) = BitVec.allOnes 32 by decide, BitVec.and_allOnes, syncbusyImage_eq_zero_iff]
  exact fun hnone => absurd ((hnone i).symm.trans hi) Bool.false_ne_true

theorem pollHangs_step {pend : Pend} (hp : ∃ i, pend.has i = true) (hs : PollHangs rest pend s)
    (h : step s = .next t) : PollHangs rest pend t := by
  obtain ⟨hl, hcg, hc, rfl, hh⟩ := hs
  by_cases ht : s.turn = .host
  · rw [step_poll (i := .rdSyncbusy) hl ht hh rfl rfl, if_neg (syncbusy_poll_goes_on hp)] at h
    cases h
    have hhw := s.turnTaken_hw
    exact ⟨hl.turnTaken, by rw [hhw, hcg], by rw [hhw, hc], by rw [hhw], hh⟩
  · obtain ⟨hl', hh'⟩ := live_agent_step h ht hl
    obtain ⟨hpend, hcg', hc'⟩ := unclocked_step h ht hl.1 hcg hc
    exact ⟨hl', hcg', hc', hpend, hh'.trans hh⟩

/-- Settles O46: every step keeps the POLL where it is and the items pending. -/
theorem pollHangsWithoutClock : Obligations.PollHangsWithoutClock := by
  intro s u rest k hl hcg hc hp hh hrun
  obtain ⟨hl', -, -, hpend, hh'⟩ :=
    run_induct (P := PollHangs rest s.hw.pend) (fun _ _ => pollHangs_step hp) ⟨hl, hcg, hc, rfl, hh⟩ hrun
  exact ⟨hh', hpend, hl'⟩

/-! ### The loop of `write` (R174) -/

/-- The loop's test of INTFLAG is TXRDY0. -/
theorem intflagImage_and_txrdy0 (h : Hardware) : intflagImage h &&& txrdy0Mask ≠ 0 ↔ h.txrdy0 = true := by
  rw [intflagImage]
  cases h.txur0 <;> cases h.txrdy0 <;> decide

/-- The loop's read of INTFLAG. -/
theorem step_awaitReady (hl : s.Live) (ht : s.turn = .host) (hh : s.host = .awaitReady :: rest) :
    step s = .next { s.turnTaken with
      host := .awaitReadyBusy (intflagImage s.hw) :: rest
      result := intflagImage s.hw, buslog := s.buslog ++ [⟨selector .intflag .read, intflagImage s.hw⟩] } :=
  step_read (i := .rdIntflag) (image := intflagImage) hl ht hh (decode_read .intflag 0) rfl

/-- The loop's read of SYNCBUSY, after which it ends or goes round. -/
theorem step_awaitReadyBusy {f : Word} (hl : s.Live) (ht : s.turn = .host)
    (hh : s.host = .awaitReadyBusy f :: rest) :
    ∃ ops, step s = .next { s.turnTaken with
        host := ops
        result := syncbusyImage s.hw, buslog := s.buslog ++ [⟨selector .syncbusy .read, syncbusyImage s.hw⟩] } ∧
      ((f &&& txrdy0Mask ≠ 0 ∧ ops = rest) ∨ ops = .awaitReady :: rest) := by
  refine ⟨_, step_read (i := .rdSyncbusy) (image := syncbusyImage) hl ht hh (decode_read .syncbusy 0) rfl, ?_⟩
  rw [HostOp.left]
  split
  next hready => exact .inl ⟨hready.1, rfl⟩
  · exact .inr rfl

/-- The HOST is in the loop of `write` while nothing is enabled. -/
structure LoopHangs (rest : List HostOp) (s : State) : Prop where
  live : s.Live
  quiet : s.hw.pend.anyEnsync = false
  off : s.hw.eff.any = false
  host : s.host = .awaitReady :: rest ∨ ∃ f, f &&& txrdy0Mask = 0 ∧ s.host = .awaitReadyBusy f :: rest

theorem txrdy0_of_off {h : Hardware} (ho : h.eff.any = false) : h.txrdy0 = false := by
  simp_all [Enables.any, Hardware.txrdy0, Hardware.serRun]

theorem loopHangs_step (hs : LoopHangs rest s) (h : step s = .next t) : LoopHangs rest t := by
  obtain ⟨hl, hq, ho, hh⟩ := hs
  have hhw := s.turnTaken_hw
  by_cases ht : s.turn = .host
  · obtain hh | ⟨f, hf, hh⟩ := hh
    · cases (step_awaitReady hl ht hh).symm.trans h
      have hzero := (intflagImage_and_txrdy0 s.hw).not.2 (by simp [txrdy0_of_off ho])
      exact ⟨hl.turnTaken, by rwa [hhw], by rwa [hhw], .inr ⟨_, not_not.1 hzero, rfl⟩⟩
    · obtain ⟨ops, he, ⟨hne, -⟩ | rfl⟩ := step_awaitReadyBusy hl ht hh
      · exact absurd hf hne
      · cases he.symm.trans h
        exact ⟨hl.turnTaken, by rwa [hhw], by rwa [hhw], .inl rfl⟩
  · obtain ⟨hl', hh'⟩ := live_agent_step h ht hl
    obtain ⟨heff, hq', -⟩ := undisturbed_step h ht hl.1 hq
    exact ⟨hl', hq', by rwa [heff], hh'.symm ▸ hh⟩

/-- Settles O47: every step keeps the HOST in the loop. -/
theorem writeHangsWhileDisabled : Obligations.WriteHangsWhileDisabled := by
  intro s u rest k hl hq ho hh hrun
  obtain ⟨hl', -, -, hh'⟩ :=
    run_induct (P := LoopHangs rest) (fun _ _ => loopHangs_step) ⟨hl, hq, ho, .inl hh⟩ hrun
  exact ⟨hl', hh'.imp_right fun ⟨f, _, hf⟩ => ⟨f, hf⟩⟩

/-! ### One word of `write` (R174) -/

/-- The HOST's turn with a WR first in its program that its rule accepts. -/
theorem step_write_accepted {r : Reg} {w : Word} {i : Instr} {rule : Hardware → Verdict} {h : Hardware} (hl : s.Live)
    (ht : s.turn = .host) (hh : s.host = wrOp r w :: rest) (hd : writeInstr w r = some i)
    (he : ∀ s, exec i s = busWrite r w rule s) (hw : w &&& reservedMask r = 0) (hv : rule s.hw = .accept h) :
    step s = .next { s.turnTaken with
      hw := h, host := rest, buslog := s.buslog ++ [⟨selector r .write, w⟩] } := by
  have hdec : decode (wrOp r w).request = .ok i := by
    rw [wrOp, HostOp.request, writeRequest, decode_write, hd]
    rfl
  have hhw : rule { s.turnTaken with host := rest }.hw = .accept h := by rwa [s.turnTaken_hw]
  rw [step_host ht hh, runRequest_of_ok hdec, wrOp, resumeOut_issue,
    exec_accepted (live_turnTaken hl rest) (he _) hw hhw, s.turnTaken_buslog]

/-- How far one word of `write` has come: in the loop, its last read of INTFLAG having told the truth, or past it with
TXRDY0 at 1. -/
inductive WritePhase (v : Word) (rest : List HostOp) (s : State) : Prop
  | await (hh : s.host = writeWord v ++ rest)
  | busy (f : Word) (hf : f &&& txrdy0Mask ≠ 0 → s.hw.txrdy0 = true)
      (hh : s.host = .awaitReadyBusy f :: wrOp .intflag txur0Mask :: wrOp .data0 v :: rest)
  | clear (hr : s.hw.txrdy0 = true) (hh : s.host = wrOp .intflag txur0Mask :: wrOp .data0 v :: rest)
  | send (hr : s.hw.txrdy0 = true) (hh : s.host = wrOp .data0 v :: rest)

/-- The HOST is at one word of `write`, no enable item pending. -/
structure Writing (v : Word) (rest : List HostOp) (s : State) : Prop where
  live : s.Live
  quiet : s.hw.pend.anyEnsync = false
  phase : WritePhase v rest s

/-- The word has been accepted. -/
structure WordAccepted (v : Word) (rest : List HostOp) (s : State) : Prop where
  live : s.Live
  host : s.host = rest
  datareg : s.hw.datareg = v
  pending : s.hw.pend.data0 = true

/-- The HOST's own step at one word of `write`. -/
theorem writing_host_step {v : Word} (hs : Writing v rest s) (ht : s.turn = .host) (h : step s = .next t) :
    Writing v rest t ∨ WordAccepted v rest t := by
  obtain ⟨hl, hq, hphase⟩ := hs
  have hhw := s.turnTaken_hw
  have hl' := hl.turnTaken
  cases hphase with
  | await hh =>
    cases (step_awaitReady hl ht hh).symm.trans h
    refine .inl ⟨hl', by rwa [hhw], .busy (intflagImage s.hw) (fun hf => ?_) rfl⟩
    rw [hhw]
    exact (intflagImage_and_txrdy0 s.hw).1 hf
  | busy f hf hh =>
    obtain ⟨ops, he, ⟨hne, rfl⟩ | rfl⟩ := step_awaitReadyBusy hl ht hh <;> cases he.symm.trans h
    · exact .inl ⟨hl', by rwa [hhw], .clear (by rw [hhw]; exact hf hne) rfl⟩
    · exact .inl ⟨hl', by rwa [hhw], .await rfl⟩
  | clear hr hh =>
    cases (step_write_accepted hl ht hh rfl (fun _ => rfl) (by decide) (intflagRule_eq txur0Mask s.hw)).symm.trans h
    exact .inl ⟨hl', hq, .send hr rfl⟩
  | send hr hh =>
    cases (step_write_accepted hl ht hh rfl (fun _ => rfl) BitVec.and_zero (data0Rule_accept v hr)).symm.trans h
    exact .inr ⟨hl', rfl, rfl, rfl⟩

/-- An agent's step at one word of `write`. -/
theorem writing_agent_step {v : Word} (hs : Writing v rest s) (ht : s.turn ≠ .host) (h : step s = .next t) :
    Writing v rest t := by
  obtain ⟨hl, hq, hphase⟩ := hs
  obtain ⟨hl', hh'⟩ := live_agent_step h ht hl
  obtain ⟨-, hq', hr'⟩ := undisturbed_step h ht hl.1 hq
  refine ⟨hl', hq', ?_⟩
  cases hphase with
  | await hh => exact .await (hh'.trans hh)
  | busy f hf hh => exact .busy f (fun hne => hr' (hf hne)) (hh'.trans hh)
  | clear hr hh => exact .clear (hr' hr) (hh'.trans hh)
  | send hr hh => exact .send (hr' hr) (hh'.trans hh)

/-- A run from one word of `write`: it was accepted on the way, or the HOST is still at it. -/
theorem run_writing {v : Word} (hs : Writing v rest s) (h : core.run k s = .next u) :
    (∃ j m, j ≤ k ∧ core.run j s = .next m ∧ WordAccepted v rest m) ∨ Writing v rest u := by
  induction k generalizing s with
  | zero =>
    cases h
    exact .inr hs
  | succ k ih =>
    obtain ⟨t, hstep, hrun⟩ := run_succ_next h
    have ht : Writing v rest t ∨ WordAccepted v rest t := by
      by_cases ht : s.turn = .host
      · exact writing_host_step hs ht hstep
      · exact .inl (writing_agent_step hs ht hstep)
    obtain ht | ht := ht
    · exact (ih ht hrun).imp_left fun ⟨j, m, hj, hm, ha⟩ => ⟨j + 1, m, Nat.succ_le_succ hj, run_succ hstep hm, ha⟩
    · exact .inl ⟨1, t, Nat.succ_le_succ (Nat.zero_le k), run_succ hstep rfl, ht⟩

/-- Settles O52: each phase of the word leads to itself or the next, and the last one to the accepted word. -/
theorem writeNeverFaults : Obligations.WriteNeverFaults := by
  intro s u v rest k hl hq hh hrun
  obtain ⟨j, m, hj, hm, hlm, hhost, hdata, hp⟩ | ⟨hlu, -, hphase⟩ := run_writing ⟨hl, hq, .await hh⟩ hrun
  · exact .inl ⟨j, m, hj, hm, hlm, hhost, hdata, hp⟩
  · refine .inr ⟨hlu, ?_⟩
    cases hphase with
    | await hh => exact .inl hh
    | busy f _ hh => exact .inr (.inl ⟨f, hh⟩)
    | clear _ hh => exact .inr (.inr (.inl hh))
    | send _ hh => exact .inr (.inr (.inr hh))

end

end Sys2Proof.Machine

/-! Proofs about the driver's operations: the steps along a schedule, said of the hardware, the program, the schedule and
the log of slots, are put together into the runs of `configure`, `init`, `enable` and `disable`
(spec/45_driver_sequences.md R170 to R173, R177). -/

namespace Sys2Proof.Machine

open Sys2Proof

section
variable {s t u : State} {h h' : Hardware} {ops : List HostOp} {ts : List Turn} {tx : List TxEntry} {r : Reg}
  {i : Instr}

/-! ### Steps along a schedule -/

/-- A live state with this hardware, this program, these turns to come and this log of slots. -/
structure State.At (s : State) (h : Hardware) (ops : List HostOp) (ts : List Turn) (tx : List TxEntry) : Prop where
  live : s.Live
  hw : s.hw = h
  host : s.host = ops
  schedule : s.schedule = ts
  txlog : s.txlog = tx

/-- Two runs, one after the other. -/
theorem run_add {j k : Nat} (hj : core.run j s = .next t) (hk : core.run k t = .next u) :
    core.run (j + k) s = .next u := by
  induction j generalizing s with
  | zero =>
    cases hj
    rwa [Nat.zero_add]
  | succ j ih =>
    obtain ⟨v, hv, hrun⟩ := run_succ_next hj
    rw [Nat.succ_add]
    exact run_succ hv (ih hrun)

theorem run_one (hs : step s = .next t) : core.run 1 s = .next t := run_succ hs rfl

/-- The HOST's turn with a write that its rule accepts. -/
theorem State.At.step_write {w : Word} {rule : Hardware → Verdict} (hs : s.At h (wrOp r w :: ops) (.host :: ts) tx)
    (hd : writeInstr w r = some i) (he : ∀ s, exec i s = busWrite r w rule s) (hw : w &&& reservedMask r = 0)
    (hv : rule h = .accept h') : ∃ u : State, core.run 1 s = .next u ∧ u.At h' ops ts tx := by
  obtain ⟨hl, rfl, hh, hsched, rfl⟩ := hs
  have hstep := step_wrOp hl hsched hh hd he hw
  rw [hv] at hstep
  exact ⟨_, run_one hstep, hl, rfl, rfl, rfl, rfl⟩

/-- The HOST's turn with a POLL that is satisfied. -/
theorem State.At.step_poll {mask want : Word} {image : Hardware → Word}
    (hs : s.At h (pollOp r mask want :: ops) (.host :: ts) tx) (hd : readInstr r = some i)
    (he : ∀ s, exec i s = busRead r image s) (hw : image h &&& mask = want) :
    ∃ u : State, core.run 1 s = .next u ∧ u.At h ops ts tx := by
  obtain ⟨hl, rfl, hh, hsched, rfl⟩ := hs
  exact ⟨_, run_one (step_pollOp hl hsched hh hd he hw), hl, rfl, rfl, rfl, rfl⟩

/-- CGSYNC's turn with a write pending. -/
theorem State.At.step_cgSync (hs : s.At h ops (.cgSync :: ts) tx) (hp : h.cgpend ≠ .none) :
    ∃ u : State, core.run 1 s = .next u ∧ u.At h.cgSync ops ts tx := by
  obtain ⟨hl, rfl, hh, hsched, rfl⟩ := hs
  exact ⟨_, run_one (Machine.step_cgSync hl hsched hp), hl, rfl, hh, rfl, rfl⟩

/-- SYNC's turn with its item pending and the ASC's clock on. -/
theorem State.At.step_sync {item : Item} (hs : s.At h ops (.sync item :: ts) tx)
    (hc : h.ascClkOn Config.params = true) (hp : h.pend.has item = true) :
    ∃ (u : State) (w : Word), core.run 1 s = .next u ∧ u.At (h.syncItem w item) ops ts tx := by
  obtain ⟨hl, rfl, hh, hsched, rfl⟩ := hs
  exact ⟨_, _, run_one (Machine.step_sync hl hsched hc hp), hl, rfl, hh, rfl, rfl⟩

/-! ### `configure` (R170) -/

/-- The CG's poll ends where the CG is idle. -/
theorem State.At.step_pollCg (hs : s.At h (pollCg :: ops) (.host :: ts) tx) (hb : h.cgbusy = false) :
    ∃ u : State, core.run 1 s = .next u ∧ u.At h ops ts tx := by
  refine hs.step_poll (i := .rdCgstatus) (image := cgstatusImage) rfl (fun _ => rfl) ?_
  rw [cgstatusImage_eq, hb]
  rfl

/-- A CG write that is accepted, CGSYNC and the poll after it. -/
theorem State.At.run_cgWrite {w : Word} {rule : Hardware → Verdict}
    (hs : s.At h (wrOp r w :: pollCg :: ops) (.host :: .cgSync :: .host :: ts) tx) (hd : writeInstr w r = some i)
    (he : ∀ s, exec i s = busWrite r w rule s) (hw : w &&& reservedMask r = 0) (hv : rule h = .accept h')
    (hp : h'.cgpend ≠ .none) : ∃ u : State, core.run 3 s = .next u ∧ u.At h'.cgSync ops ts tx := by
  obtain ⟨a, ha, hs⟩ := hs.step_write hd he hw hv
  obtain ⟨b, hb, hs⟩ := hs.step_cgSync hp
  obtain ⟨c, hc, hs⟩ := hs.step_pollCg rfl
  exact ⟨c, run_add (run_add ha hb) hc, hs⟩

/-- What `configure` leaves in the hardware. -/
structure ClockConfigured (id src : BitVec 4) (div : BitVec 16) (h : Hardware) : Prop where
  idle : h.cgbusy = false
  gencfg : h.gencfg = gencfgWord id src div true
  clkroute : h.clkroute = clkrouteWord Config.params.ascCid id true
  gen : h.gen[id.toFin] = ⟨src, div, true⟩
  chan : h.ascChan Config.params = ⟨id, true⟩

/-- The GENCFG word of a generator and a source that exist is in range where the divisor is not 0. -/
theorem gencfgOutOfRange_word {p : Config.Params} {id src : BitVec 4} {div : BitVec 16} {en : Bool}
    (hid : id.toNat < p.nGen) (hsrc : src.toNat < p.nSrc) (hdiv : div ≠ 0) :
    gencfgOutOfRange p (gencfgWord id src div en) = false := by
  rw [Bool.eq_false_iff, Ne, gencfgOutOfRange_iff, gencfgDiv_word, gencfgId_word, gencfgSrc_word]
  rintro (h | h | h)
  · exact hdiv h
  · exact absurd hid (not_lt.2 h)
  · exact absurd hsrc (not_lt.2 h)

theorem gencfgEntry_word (id src : BitVec 4) (div : BitVec 16) (en : Bool) :
    gencfgEntry (gencfgWord id src div en) = ⟨src, div, en⟩ := by
  rw [gencfgEntry, gencfgSrc_word, gencfgDiv_word, gencfgGenen_word]

theorem clkrouteEntry_word (cid : BitVec 6) (g : BitVec 4) (en : Bool) :
    clkrouteEntry (clkrouteWord cid g en) = ⟨g, en⟩ := by
  rw [clkrouteEntry, clkrouteGen_word, clkrouteClken_word]

/-- `configure` of a generator and source that exist, the ASC not active, with CGSYNC after each of its writes. -/
theorem run_configure {id src : BitVec 4} {div : BitVec 16}
    (hs : s.At h (driverConfigure Config.params id div src true ++ ops)
      ([.host, .host, .cgSync, .host, .host, .cgSync, .host] ++ ts) tx)
    (hb : h.cgbusy = false) (ha : h.ascActive = false) (hid : id.toNat < Config.params.nGen)
    (hsrc : src.toNat < Config.params.nSrc) (hdiv : div ≠ 0) :
    ∃ (u : State) (h' : Hardware), core.run 7 s = .next u ∧ u.At h' ops ts tx ∧ ClockConfigured id src div h' := by
  have hgen : gencfgTouchesAsc Config.params (gencfgWord id src div true) h = false := by
    rw [gencfgTouchesAsc, ha, Bool.false_and, Bool.false_and]
  obtain ⟨a, hra, hs⟩ := State.At.step_pollCg hs hb
  obtain ⟨b, hrb, hs⟩ := hs.run_cgWrite rfl (fun _ => rfl) (gencfgWord_reserved id src div true)
    (gencfgRule_accept hb (gencfgOutOfRange_word hid hsrc hdiv) hgen) nofun
  rw [cgSync_of_gen rfl] at hs
  have hrange : clkrouteOutOfRange Config.params (clkrouteWord Config.params.ascCid id true) = false := by
    rw [clkrouteOutOfRange, clkrouteGen_word, decide_eq_false (not_le.2 hid)]
  obtain ⟨c, hrc, hs⟩ := hs.run_cgWrite rfl (fun _ => rfl) (clkrouteWord_reserved Config.params.ascCid id true)
    (clkrouteRule_accept rfl hrange (by rw [clkrouteTouchesAsc]; exact Bool.and_eq_false_iff.2 (.inl ha))) nofun
  rw [cgSync_of_route rfl] at hs
  refine ⟨c, _, run_add (run_add hra hrb) hrc, hs, rfl, rfl, rfl, ?_, ?_⟩
  · dsimp only
    rw [getElem_fin_set, gencfgId_word, gencfgEntry_word]
    exact if_pos rfl
  · rw [Hardware.ascChan]
    dsimp only
    rw [getElem_fin_set, clkrouteCid_word, clkrouteEntry_word]
    exact if_pos rfl

/-- The ASC's clock is on after `configure`. -/
theorem ClockConfigured.ascClkOn {id src : BitVec 4} {div : BitVec 16} (hc : ClockConfigured id src div h) :
    h.ascClkOn Config.params = true := by
  simp only [Hardware.ascClkOn, hc.chan, hc.gen, Bool.and_self]

/-- Settles O48: the run of `configure`, and what it leaves. -/
theorem configureClocksTheAsc : Obligations.ConfigureClocksTheAsc := by
  intro s id src div rest later hl hb ha hid hsrc hdiv hh hsched
  obtain ⟨u, h', hrun, ⟨hlive, rfl, hhost, hlater, -⟩, hc⟩ :=
    run_configure ⟨hl, rfl, hh, hsched, rfl⟩ hb ha hid hsrc hdiv
  exact ⟨u, hrun, hlive, hhost, hlater, hc.idle, hc.gen, hc.chan, hc.ascClkOn⟩

/-- Settles O60: the bring-up begins with `configure` of the reference oscillator divided by 17. -/
theorem referenceBringUpClocksTheAsc : Obligations.ReferenceBringUpClocksTheAsc := by
  intro s g later hl hb ha hg hh hsched
  have hhost : s.host =
      driverConfigure Config.params g referenceDivisor Config.referenceSource true ++ (driverInit ++ driverEnable) := by
    rw [hh, bringUpRef, bringUp, List.append_assoc]
  obtain ⟨u, h', hrun, ⟨hlive, rfl, hrest, hlater, -⟩, hc⟩ :=
    run_configure ⟨hl, rfl, hhost, hsched, rfl⟩ hb ha hg Config.referenceSource_lt (by decide)
  refine ⟨u, hrun, hlive, hrest, hlater, hc.gencfg, hc.clkroute, ?_, ?_⟩
  · simp only [Hardware.refClock, hc.chan, hc.gen, BEq.rfl, Bool.and_self]
  · have hdiv : referenceDivisor.toNat = 17 := rfl
    rw [hc.gen, outputHz, Config.sourceHz_reference, hdiv]
    norm_num

/-! ### The SYNC steps of several items, in any order -/

/-- Nothing is on its way to the serializer, and its write slot is the left one while it runs. -/
structure Hardware.PathEmpty (h : Hardware) : Prop where
  hold : h.hold = none
  pending : h.pend.data0 = false
  slot : h.serRun = true → h.wslot = 0

/-- What the SYNC steps of the items in `l` do to the hardware, DATA0 not among them. -/
structure Synced (l : List Item) (h h' : Hardware) : Prop where
  ctrla : h'.ctrla = h.ctrla
  clkctrl0 : h'.clkctrl0 = h.clkctrl0
  serctrl0 : h'.serctrl0 = h.serctrl0
  clock : h'.ascClkOn Config.params = h.ascClkOn Config.params
  pend : ∀ j, j ≠ .data0 → h'.pend.has j = if j ∈ l then false else h.pend.has j
  inv : h.Inv Config.params → h'.Inv Config.params
  empty : h.PathEmpty → h'.PathEmpty

/-- SYNC of an item other than DATA0 keeps an empty data path: where the serializer starts the write slot is 0. -/
theorem pathEmpty_syncItem {item : Item} (w : Word) (hi : item ≠ .data0) (he : h.PathEmpty) :
    (h.syncItem w item).PathEmpty := by
  obtain ⟨hhold, hp, hslot⟩ := he
  have hp' : (h.pend.drop item).data0 = false := by
    cases item
    case data0 => exact absurd rfl hi
    all_goals exact hp
  rw [syncItem_eq w h hi, runEdges_eq_ite]
  refine ⟨?_, ?_, ?_⟩
  · dsimp only
    split
    · exact hhold
    · rfl
  · dsimp only
    split
    · rfl
    · exact hp'
  · intro hr
    dsimp only
    split
    · rfl
    next hstart =>
      refine hslot ?_
      by_contra hs
      exact hstart ⟨hr, by simpa using hs⟩

theorem synced_syncItem {item : Item} (w : Word) (hi : item ≠ .data0) (hp : h.pend.has item = true) :
    Synced [item] h (h.syncItem w item) := by
  obtain ⟨hgen, hchan, hclk, hser, hctrla⟩ := syncItem_frame h w item
  refine ⟨hctrla, hclk, hser, ?_, fun j hj => ?_, fun hinv => inv_syncItem w hinv hp, pathEmpty_syncItem w hi⟩
  · simp only [Hardware.ascClkOn, Hardware.ascChan, hgen, hchan]
  · rw [syncItem_eq w h hi, runEdges_pend_has _ _ _ _ hj, Pend.has_drop]
    simp only [List.mem_singleton, eq_comm]

/-- The SYNC steps of items that are pending, one after the other. -/
theorem run_syncs {l : List Item} (hn : l.Nodup) (hd : .data0 ∉ l) (hs : s.At h ops (l.map .sync ++ ts) tx)
    (hc : h.ascClkOn Config.params = true) (hp : ∀ j ∈ l, h.pend.has j = true) :
    ∃ (u : State) (h' : Hardware), core.run l.length s = .next u ∧ u.At h' ops ts tx ∧ Synced l h h' := by
  induction l generalizing s h with
  | nil => exact ⟨s, h, rfl, hs, rfl, rfl, rfl, rfl, fun _ _ => by simp, id, id⟩
  | cons item l ih =>
    obtain ⟨hmem, hn⟩ := List.nodup_cons.1 hn
    have hi : item ≠ .data0 := fun he => hd (he ▸ List.mem_cons_self)
    obtain ⟨a, w, hra, hs⟩ := hs.step_sync hc (hp item List.mem_cons_self)
    have h1 := synced_syncItem w hi (hp item List.mem_cons_self)
    obtain ⟨u, h', hru, hs, h2⟩ := ih hn (fun he => hd (List.mem_cons_of_mem item he)) hs (h1.clock.trans hc)
      fun j hj => by
        have hne : j ≠ item := fun he => hmem (he ▸ hj)
        rw [h1.pend j fun he => hd (he ▸ List.mem_cons_of_mem item hj)]
        simpa [hne] using hp j (List.mem_cons_of_mem item hj)
    refine ⟨u, h', ?_, hs, h2.ctrla.trans h1.ctrla, h2.clkctrl0.trans h1.clkctrl0, h2.serctrl0.trans h1.serctrl0,
      h2.clock.trans h1.clock, fun j hj => ?_, h2.inv ∘ h1.inv, h2.empty ∘ h1.empty⟩
    · rw [List.length_cons, Nat.add_comm]
      exact run_add hra hru
    · rw [h2.pend j hj, h1.pend j hj]
      by_cases hjl : j ∈ l <;> by_cases hji : j = item <;> simp [hjl, hji]

/-! ### `init`, `enable` and `disable` (R171 to R173) -/

/-- The poll of the aggregate busy word ends where nothing is pending. -/
theorem State.At.step_pollSync (hs : s.At h (pollSync :: ops) (.host :: ts) tx) (hp : h.pend = Pend.empty) :
    ∃ u : State, core.run 1 s = .next u ∧ u.At h ops ts tx := by
  refine hs.step_poll (i := .rdSyncbusy) (image := syncbusyImage) rfl (fun _ => rfl) ?_
  rw [syncbusyImage, hp]
  rfl

/-- The three enable items complete in some order: none of them is pending afterwards, and the others are as they
were. -/
theorem run_syncEnables {a b c : Item} (hperm : [a, b, c].Perm [.enable, .cken0, .seren0])
    (hs : s.At h ops (.sync a :: .sync b :: .sync c :: ts) tx) (hc : h.ascClkOn Config.params = true)
    (hen : h.pend.enable = true) (hck : h.pend.cken0 = true) (hse : h.pend.seren0 = true) :
    ∃ (u : State) (h' : Hardware), core.run 3 s = .next u ∧ u.At h' ops ts tx ∧
      Synced [.enable, .cken0, .seren0] h h' := by
  have hp : ∀ j ∈ [a, b, c], h.pend.has j = true := by
    intro j hj
    rw [hperm.mem_iff] at hj
    simp only [List.mem_cons, List.not_mem_nil, or_false] at hj
    obtain rfl | rfl | rfl := hj
    · exact hen
    · exact hck
    · exact hse
  obtain ⟨u, h', hrun, hs, hsync⟩ := run_syncs (l := [a, b, c]) (hperm.nodup_iff.2 (by decide))
    (fun hd => absurd (hperm.mem_iff.1 hd) (by decide)) hs hc hp
  obtain ⟨h1, h2, h3, h4, hpend, h6, h7⟩ := hsync
  refine ⟨u, h', hrun, hs, h1, h2, h3, h4, fun j hj => ?_, h6, h7⟩
  rw [hpend j hj]
  simp only [hperm.mem_iff]

theorem Enables.any_eq_false_iff (e : Enables) : e.any = false ↔ e = Enables.none := by
  rw [← Bool.not_eq_true, Enables.any_iff, not_not]
  rfl

/-- With no enable item pending the effective enables are the written ones. -/
theorem eff_eq_ctrla (hf : h.EffFollows) (hp : h.pend = Pend.empty) : h.eff = h.ctrla := by
  obtain ⟨hen, hck, hse⟩ := hf
  rw [hp] at hen hck hse
  have hen := hen rfl
  have hck := hck rfl
  have hse := hse rfl
  generalize h.eff = e, h.ctrla = c at *
  cases e
  cases c
  simp_all

/-- While the serializer is off the data path is empty (R145). -/
theorem pathEmpty_of_off (hd : h.DataPath) (hr : h.serRun = false) : h.PathEmpty := by
  obtain ⟨hpend, hheld⟩ := hd
  refine ⟨Option.eq_none_iff_forall_ne_some.2 fun x hx => ?_, ?_, fun hr' => ?_⟩
  · exact absurd (hr.symm.trans (hheld x hx).1) Bool.false_ne_true
  · by_contra hp
    exact absurd (hr.symm.trans (hpend (by simpa using hp)).1) Bool.false_ne_true
  · exact absurd (hr.symm.trans hr') Bool.false_ne_true

theorem serRun_of_none (he : h.eff = Enables.none) : h.serRun = false := by
  rw [Hardware.serRun, he]
  rfl

/-- What a write of CTRLA leaves once its three items have completed and nothing else was pending. -/
structure CtrlaDone (w : Word) (h h' : Hardware) : Prop where
  inv : h'.Inv Config.params
  pend : h'.pend = Pend.empty
  ctrla : h'.ctrla = ctrlaFields w
  eff : h'.eff = ctrlaFields w
  clkctrl0 : h'.clkctrl0 = h.clkctrl0
  serctrl0 : h'.serctrl0 = h.serctrl0
  clock : h'.ascClkOn Config.params = true
  empty : h'.PathEmpty

/-- A write of CTRLA, its three items in any order, and the poll after them. The data path is empty before, or the
write clears the enables. -/
theorem run_ctrla {w : Word} {a b c : Item} (hperm : [a, b, c].Perm [.enable, .cken0, .seren0])
    (hs : s.At h (wrOp .ctrla w :: pollSync :: ops) (.host :: .sync a :: .sync b :: .sync c :: .host :: ts) tx)
    (hi : h.Inv Config.params) (hq : h.quiet = true) (hc : h.ascClkOn Config.params = true)
    (hw : w &&& reservedMask .ctrla = 0) (href : (ctrlaFields w).any = true → h.refcfg = true)
    (he : h.PathEmpty ∨ ctrlaFields w = Enables.none) :
    ∃ (u : State) (h' : Hardware), core.run 5 s = .next u ∧ u.At h' ops ts tx ∧ CtrlaDone w h h' := by
  obtain ⟨hen, hcfg⟩ : h.pend.anyEnsync = false ∧ h.pend.anyCfgsync = false := by
    simpa [Hardware.quiet] using hq
  obtain ⟨hclk, hser⟩ := Bool.or_eq_false_iff.1 hcfg
  have hi₁ := (Accepted.ctrla (p := Config.params) w hen hcfg href).inv hi
  obtain ⟨x, hx, hs⟩ := hs.step_write rfl (fun _ => rfl) hw (ctrlaRule_accept hen hcfg href)
  obtain ⟨y, h', hy, hs, hsync⟩ := run_syncEnables hperm hs hc rfl rfl rfl
  have hi' := hsync.inv hi₁
  have hnone : ∀ j, j ≠ .data0 → h'.pend.has j = false := by
    intro j hj
    rw [hsync.pend j hj]
    cases j
    case data0 => exact absurd rfl hj
    case enable | cken0 | seren0 => rfl
    case clkctrl0 => exact hclk
    case serctrl0 => exact hser
  have hempty : h'.PathEmpty := by
    obtain ⟨hhold, hp, hslot⟩ | hoff := he
    · exact hsync.empty ⟨hhold, hp, hslot⟩
    · refine pathEmpty_of_off hi'.data ?_
      have hctrla : h'.ctrla = Enables.none := hsync.ctrla.trans hoff
      have hen' := hi'.eff.1 (hnone .enable (by decide))
      rw [Hardware.serRun, hen', hctrla]
      rfl
  have hpend : h'.pend = Pend.empty := Pend.ext_has fun j => by
    cases j
    case data0 => exact hempty.pending
    all_goals exact hnone _ (by decide)
  obtain ⟨z, hz, hs⟩ := hs.step_pollSync hpend
  exact ⟨z, h', run_add (run_add hx hy) hz, hs, hi', hpend, hsync.ctrla,
    (eff_eq_ctrla hi'.eff hpend).trans hsync.ctrla, hsync.clkctrl0, hsync.serctrl0, hsync.clock.trans hc, hempty⟩

/-! ### The driver-visible states (R14) -/

/-- The driver-visible states by the registers, in the order in which they are told apart. -/
theorem driverState_eq (hl : s.Live) (href : s.hw.refcfg = true) :
    s.driverState =
      if s.hw.quiet && !s.hw.ctrla.any && !s.hw.eff.any then some .configuredOrDisabled
      else if s.hw.quiet && s.hw.ctrla == ⟨true, true, true⟩ && s.hw.eff == ⟨true, true, true⟩ then some .enabled
      else none := by
  obtain ⟨hclk, -⟩ := (refcfg_iff s.hw).1 href
  have hreset : s.hw.ascAtReset = false := by simp [Hardware.ascAtReset, hclk]
  simp only [State.driverState, hl.1, hl.2, hreset, href, Bool.or_self, Bool.true_and, Bool.false_eq_true, if_false]

theorem refcfg_of_driverState {d : DriverState} (h : s.driverState = some d) (hd : d ≠ .uninitialized) :
    s.hw.refcfg = true := by
  by_contra hr
  have hr : s.hw.refcfg = false := by simpa using hr
  simp only [State.driverState, hr, Bool.false_and, Bool.false_eq_true, if_false] at h
  split at h
  · cases h
  · split at h
    · exact hd (Option.some.inj h).symm
    · cases h

theorem driverState_configured (hl : s.Live) (href : s.hw.refcfg = true) :
    s.driverState = some .configuredOrDisabled ↔
      s.hw.quiet = true ∧ s.hw.ctrla = Enables.none ∧ s.hw.eff = Enables.none := by
  rw [driverState_eq hl href, ← Enables.any_eq_false_iff, ← Enables.any_eq_false_iff]
  constructor
  · intro h
    split at h
    next hc => simpa [and_assoc] using hc
    · split at h <;> cases h
  · rintro ⟨hq, hc, he⟩
    rw [hq, hc, he]
    rfl

theorem driverState_enabled (hl : s.Live) (href : s.hw.refcfg = true) :
    s.driverState = some .enabled ↔
      s.hw.quiet = true ∧ s.hw.ctrla = ⟨true, true, true⟩ ∧ s.hw.eff = ⟨true, true, true⟩ := by
  rw [driverState_eq hl href]
  constructor
  · intro h
    split at h
    · cases h
    · split at h
      next hc => simpa [and_assoc] using hc
      · cases h
  · rintro ⟨hq, hc, he⟩
    rw [hq, hc, he]
    rfl

theorem quiet_of_empty (hp : h.pend = Pend.empty) : h.quiet = true := by
  rw [Hardware.quiet, hp]
  rfl

/-- Settles O50: the run of `enable`; the serializer starts with an empty data path and its write slot at 0. -/
theorem enableReachesEnabledInAnyOrder : Obligations.EnableReachesEnabledInAnyOrder := by
  intro s a b c rest later hl hinv hd hc hperm hh hsched
  obtain ⟨-, -, hlive⟩ := hinv
  obtain ⟨hi, -⟩ := hlive hl.1
  have href := refcfg_of_driverState hd (by decide)
  obtain ⟨hq, -, heff⟩ := (driverState_configured hl href).1 hd
  obtain ⟨u, h', hrun, ⟨hlu, rfl, hrest, hlater, -⟩, hdone⟩ :=
    run_ctrla (w := ctrlaAll) hperm ⟨hl, rfl, hh, hsched, rfl⟩ hi hq hc (by decide) (fun _ => href)
      (.inl (pathEmpty_of_off hi.data (serRun_of_none heff)))
  obtain ⟨-, hpend, hctrla, heff', hclk, hser, -, hempty⟩ := hdone
  have href' : u.hw.refcfg = true := by rwa [Hardware.refcfg, hclk, hser]
  have hrunning : u.hw.serRun = true := by rw [Hardware.serRun, heff']; rfl
  refine ⟨u, hrun, (driverState_enabled hlu href').2 ⟨quiet_of_empty hpend, hctrla, heff'⟩, hrest, hlater,
    hempty.slot hrunning, hempty.hold, ?_, hclk, hser⟩
  rw [Hardware.txrdy0, hrunning, hempty.hold, hempty.pending]
  rfl

/-- Settles O51: the run of `disable`; with the enables cleared the data path is empty. -/
theorem disableDropsTheWordInAnyOrder : Obligations.DisableDropsTheWordInAnyOrder := by
  intro s a b c rest later hl hinv hd hc hperm hh hsched
  obtain ⟨-, -, hlive⟩ := hinv
  obtain ⟨hi, -⟩ := hlive hl.1
  have href := refcfg_of_driverState hd (by decide)
  obtain ⟨hq, -, -⟩ := (driverState_enabled hl href).1 hd
  obtain ⟨u, h', hrun, ⟨hlu, rfl, hrest, hlater, htx⟩, hdone⟩ :=
    run_ctrla (w := ctrlaNone) hperm ⟨hl, rfl, hh, hsched, rfl⟩ hi hq hc (by decide) (fun _ => href) (.inr (by decide))
  obtain ⟨-, hpend, hctrla, heff', hclk, hser, -, hempty⟩ := hdone
  have href' : u.hw.refcfg = true := by rwa [Hardware.refcfg, hclk, hser]
  exact ⟨u, hrun, (driverState_configured hlu href').2 ⟨quiet_of_empty hpend, hctrla, heff'⟩, hrest, hlater,
    hempty.hold, hempty.pending, htx, hclk, hser⟩

/-- The two writes of the configuration, their items in any order, and the poll after them, from a disabled ASC with
nothing pending. -/
theorem run_config {d e : Item} (hperm : [d, e].Perm [.clkctrl0, .serctrl0])
    (hs : s.At h (wrOp .clkctrl0 clkctrl0Ref :: wrOp .serctrl0 serctrl0Ref :: pollSync :: ops)
      (.host :: .host :: .sync d :: .sync e :: .host :: ts) tx)
    (hi : h.Inv Config.params) (hp : h.pend = Pend.empty) (hctrla : h.ctrla = Enables.none)
    (heff : h.eff = Enables.none) (hc : h.ascClkOn Config.params = true) (he : h.PathEmpty) :
    ∃ (u : State) (h' : Hardware), core.run 5 s = .next u ∧ u.At h' ops ts tx ∧ h'.Inv Config.params ∧
      h'.pend = Pend.empty ∧ h'.ctrla = Enables.none ∧ h'.clkctrl0 = clkctrl0Ref ∧ h'.serctrl0 = serctrl0Ref ∧
      h'.PathEmpty := by
  have hoff : h.notFullyDisabled = false := by
    rw [Hardware.notFullyDisabled, hctrla, heff, hp]
    rfl
  have hi₁ := (Accepted.clkctrl0 (p := Config.params) clkctrl0Ref hoff).inv hi
  have hoff₁ : ({ h with clkctrl0 := clkctrl0Ref, pend := h.pend.add .clkctrl0 } : Hardware).notFullyDisabled =
      false := hoff
  have hi₂ := (Accepted.serctrl0 (p := Config.params) serctrl0Ref hoff₁).inv hi₁
  obtain ⟨w, hw, hs⟩ := hs.step_write rfl (fun _ => rfl) (by decide)
    (clkctrl0Rule_accept clkctrl0Ref hoff (by rw [hp]; rfl))
  obtain ⟨x, hx, hs⟩ := hs.step_write rfl (fun _ => rfl) (by decide)
    (serctrl0Rule_accept serctrl0Ref hoff (by rw [hp]; rfl))
  have hpend : ∀ j ∈ [d, e], ((h.pend.add .clkctrl0).add .serctrl0).has j = true := by
    intro j hj
    have hj := hperm.mem_iff.1 hj
    simp only [List.mem_cons, List.not_mem_nil, or_false] at hj
    obtain rfl | rfl := hj <;> rfl
  obtain ⟨y, h', hy, hs, hsync⟩ := run_syncs (l := [d, e]) (hperm.nodup_iff.2 (by decide))
    (fun hd => absurd (hperm.mem_iff.1 hd) (by decide)) hs hc hpend
  have he' : h'.PathEmpty := hsync.empty ⟨he.hold, he.pending, he.slot⟩
  have hp' : h'.pend = Pend.empty := Pend.ext_has fun j => by
    by_cases hj : j = .data0
    · exact hj ▸ he'.pending
    · rw [hsync.pend j hj]
      simp only [hperm.mem_iff, hp]
      cases j
      case data0 => exact absurd rfl hj
      all_goals rfl
  obtain ⟨z, hz, hs⟩ := hs.step_pollSync hp'
  exact ⟨z, h', run_add (run_add (run_add hw hx) hy) hz, hs, hsync.inv hi₂, hp', hsync.ctrla.trans hctrla,
    hsync.clkctrl0, hsync.serctrl0, he'⟩

/-- Settles O49: `init` is a write of CTRLA that clears the enables, then the two writes of the configuration. -/
theorem initReachesConfiguredInAnyOrder : Obligations.InitReachesConfiguredInAnyOrder := by
  intro s a b c d e rest later hl hinv hq hc hperm hperm' hh hsched
  obtain ⟨-, -, hlive⟩ := hinv
  obtain ⟨hi, -⟩ := hlive hl.1
  obtain ⟨t, h₁, hrun₁, hs, hdone⟩ :=
    run_ctrla (w := ctrlaNone) hperm ⟨hl, rfl, hh, hsched, rfl⟩ hi hq hc (by decide) nofun (.inr (by decide))
  obtain ⟨hi₁, hpend₁, hctrla₁, heff₁, -, -, hc₁, hempty₁⟩ := hdone
  obtain ⟨u, h₂, hrun₂, ⟨hlu, rfl, hrest, hlater, -⟩, hi₂, hpend, hctrla, hclk, hser, hempty⟩ :=
    run_config hperm' hs hi₁ hpend₁ hctrla₁ heff₁ hc₁ hempty₁
  have href : u.hw.refcfg = true := by rw [Hardware.refcfg, hclk, hser]; rfl
  have heff : u.hw.eff = Enables.none := (eff_eq_ctrla hi₂.eff hpend).trans hctrla
  exact ⟨u, run_add hrun₁ hrun₂, (driverState_configured hlu href).2 ⟨quiet_of_empty hpend, hctrla, heff⟩, hrest,
    hlater, hpend, hempty.hold, hclk, hser⟩

end

end Sys2Proof.Machine
